-- ==== Sys2Proof/Word.lean ====
section
/-! DEFINITION. The word types of the block: bytes and 64-bit command and response words (R11, R80, R96). -/

namespace Sys2Proof

/-- A byte: 8 bits, unsigned (R11). -/
abbrev Byte := BitVec 8

/-- A command word or a response word: 64 bits (R80, R96; `CWW` and `RWW` of R10). -/
abbrev Word := BitVec 64

/-- A pixel index or an LED count: 16 bits, unsigned (R82; `IDXW` of R10). -/
abbrev Index := BitVec 16

end Sys2Proof
end

