-- ==== Sys2Proof/Config.lean ====
section
/-! DEFINITION. What an implementation fixes (R10): the one open number of the block, MAXLEDS. The other open
parameter, the transport T, is a pair of answer sequences in State (Machine/State.lean, log 3). -/

namespace Sys2Proof

/-- The implementation parameters of one block instance (R10). `maxLeds` is `MAXLEDS`, the capacity of the pixel
store. It stands in State as data no step writes, so that a statement about every state is a statement about
every MAXLEDS (log 6). -/
structure Config where
  maxLeds : Index
deriving DecidableEq, Repr

/-- `MAXLEDS` is legal: `1 <= MAXLEDS <= 65535` (R10; the upper bound is the field's width). -/
def Config.legal (c : Config) : Bool := decide (1 ≤ c.maxLeds.toNat)

/-- The spec's default, `MAXLEDS = 65535` (R10). -/
def Config.default : Config := { maxLeds := 65535#16 }

end Sys2Proof
end

