-- ==== Sys2Proof/Syntax.lean ====
section
/-! DEFINITION. The commands of the block, whole: one constructor of `Instr` per row of spec/opcode_table.json
(R83, R84), their formats and operand fields (R81), and the assembler's source line (R88). -/

namespace Sys2Proof

/-- The fifteen commands (R84), each with the operands its format uses (R81). Every operand has exactly the
width of its field (R80, R82), so a term that does not fit its encoding cannot be written. -/
inductive Instr where
  | create (n : Index)
  | destroy
  | showStrip
  | get (idx : Index)
  | setcb (idx : Index) (r g b br : Byte)
  | setc (idx : Index) (r g b : Byte)
  | setb (idx : Index) (br : Byte)
  | clear
  | fillcb (r g b br : Byte)
  | fillc (r g b : Byte)
  | fillb (br : Byte)
  | pushf (r g b br : Byte)
  | pushb (r g b br : Byte)
  | rotl
  | rotr
deriving DecidableEq, Repr

/-- The mnemonics of R15 and R83. -/
inductive Mnemonic where
  | CREATE | DESTROY | SHOW | GET | SETCB | SETC | SETB | CLEAR | FILLCB | FILLC | FILLB | PUSHF | PUSHB | ROTL | ROTR
deriving DecidableEq, Repr

/-- The command formats of R81. -/
inductive Format where
  | Z | N | I | IP | IC | IB | P | C | B
deriving DecidableEq, Repr

/-- The operand fields of a command word (R80). -/
inductive Field where
  | idx | r | g | b | br
deriving DecidableEq, Repr

/-- The operand fields a format uses, in the order of the source's argument lists (R81, R88). -/
def Format.fields : Format → List Field
  | .Z => []
  | .N => [.idx]
  | .I => [.idx]
  | .IP => [.idx, .r, .g, .b, .br]
  | .IC => [.idx, .r, .g, .b]
  | .IB => [.idx, .br]
  | .P => [.r, .g, .b, .br]
  | .C => [.r, .g, .b]
  | .B => [.br]

/-- The format of each command (R81, R83). -/
def Mnemonic.format : Mnemonic → Format
  | .CREATE => .N
  | .DESTROY => .Z
  | .SHOW => .Z
  | .GET => .I
  | .SETCB => .IP
  | .SETC => .IC
  | .SETB => .IB
  | .CLEAR => .Z
  | .FILLCB => .P
  | .FILLC => .C
  | .FILLB => .B
  | .PUSHF => .P
  | .PUSHB => .P
  | .ROTL => .Z
  | .ROTR => .Z

/-- The mnemonic of a command (R83). -/
def Instr.mnemonic : Instr → Mnemonic
  | .create _ => .CREATE
  | .destroy => .DESTROY
  | .showStrip => .SHOW
  | .get _ => .GET
  | .setcb _ _ _ _ _ => .SETCB
  | .setc _ _ _ _ => .SETC
  | .setb _ _ => .SETB
  | .clear => .CLEAR
  | .fillcb _ _ _ _ => .FILLCB
  | .fillc _ _ _ => .FILLC
  | .fillb _ => .FILLB
  | .pushf _ _ _ _ => .PUSHF
  | .pushb _ _ _ _ => .PUSHB
  | .rotl => .ROTL
  | .rotr => .ROTR

/-- One source line of the assembler after its text is read: a mnemonic and its operands in the order written,
as integers, so that an operand that fits no field can be written and refused (R88). -/
structure AsmLine where
  mnemonic : Mnemonic
  operands : List Int
deriving DecidableEq, Repr

end Sys2Proof
end

