-- ==== Sys2Proof/Machine/State.lean ====
section
/-! DEFINITION. The state of one block instance as plain data: the spec's six items (R20) and, named as such, the
model's own fields (the open parameter, the two inputs, the recorded outputs, and two run marks). -/

namespace Sys2Proof.Machine

/-- A pixel record: four bytes, `byte0` the brightness byte, `byte1` blue, `byte2` green, `byte3` red (R12, R110). -/
structure Pixel where
  byte0 : Byte
  byte1 : Byte
  byte2 : Byte
  byte3 : Byte
deriving DecidableEq, Repr

/-- `LIFE`, the lifecycle state (R25). -/
inductive Life where
  | uninitialized
  | ready
  | destroyed
deriving DecidableEq, Repr

/-- What the transport answers to `T.init()` (R262), or that it never answers (R265; log 21). -/
inductive InitAnswer where
  | initOk
  | initError (e : Byte)
  /-- no answer ever comes -/
  | silent
deriving DecidableEq, Repr

/-- What the transport answers to `T.write(header, pixels, footer)` (R263), or that it never answers (R265, R293). -/
inductive WriteAnswer where
  | writeOk
  | ioError (e : Byte)
  /-- no answer ever comes -/
  | silent
deriving DecidableEq, Repr

/-- An endless sequence of answers as plain data: those listed, in order, then `rest` for ever. Every finite sequence
of answers is the beginning of one of these, so a statement about every value of the field is a statement about
every answer the transport may give (R265; log 3). -/
structure Draws (α : Type) where
  listed : List α
  rest : α
deriving DecidableEq, Repr

/-- One request the block makes to its transport, with its arguments and the answer it gets (R262 to R264). -/
inductive Request where
  | init (answer : InitAnswer)
  | write (header pixels footer : List Byte) (answer : WriteAnswer)
  | teardown
deriving DecidableEq, Repr

/-- The state of one block instance with its inputs and recorded outputs. -/
structure State where
  /-- `LIFE` (R20, R25). -/
  life : Life
  /-- `NUM_LEDS`, 16 bits; `none` is the spec's `novalue` (R20, R21, R26; log 1). -/
  numLeds : Option (BitVec 16)
  /-- `FOOTER_LEN`, 13 bits; `none` is the spec's `novalue` (R20, R21, R27; log 1). -/
  footerLen : Option (BitVec 13)
  /-- `PIX[0 .. N-1]`, position 0 first; the empty list when no record exists (R20, R22, R33; log 18). -/
  pix : List Pixel
  /-- `HDR[0 .. 3]` (R20, R28; log 10). -/
  hdr : Vector Byte 4
  /-- `FTR[0 .. F-1]`; the empty list when no byte exists (R20, R29, R33; log 11). -/
  ftr : List Byte
  /-- The model's own: the open parameter MAXLEDS, which no step writes (R10; log 6). -/
  cfg : Config
  /-- The model's own: the command words the host has still to issue, next one first (R24, R32, R64; log 2). -/
  cmds : List Word
  /-- The model's own: the transport's answers to `T.init()`, an input (R265; log 3). -/
  initDraws : Draws InitAnswer
  /-- The model's own: the transport's answers to `T.write`, an input (R265; log 3). -/
  writeDraws : Draws WriteAnswer
  /-- The model's own: a transport request is outstanding and will never be answered (R293; log 4). -/
  waiting : Bool
  /-- The model's own: the run has met a use the source leaves undefined; never cleared (R243; log 5). -/
  faulted : Bool
  /-- The model's own: the response words given so far, oldest first (R17; log 7). -/
  responses : List Word
  /-- The model's own: the transport requests made so far, oldest first (R17, R32, R269; log 7). -/
  requests : List Request
deriving DecidableEq, Repr

/-- Why the machine stops with a fault. -/
inductive Fault where
  /-- Raised by the shared reads of `NUM_LEDS`, `FOOTER_LEN`, `PIX` and `FTR` (Machine/Ops.lean) when the item holds
  `novalue` (R21: "a read of it, were one possible, is a fault"). Safe: no state that meets `State.Inv` raises it (log 19). -/
  | novalueRead
deriving DecidableEq, Repr

/-- Why the machine gives an instruction no meaning. -/
inductive Refusal where
  /-- Raised by `exec` for an instruction that has no meaning yet, by name. Safe. No arm raises it. -/
  | notModelled (mnemonic : String)
deriving DecidableEq, Repr

/-- The three outcomes of a command on this machine. -/
abbrev Out := Host.Outcome State Fault Refusal

/-- A block instance directly after reset (R33, R281), with its parameter and its inputs free: any MAXLEDS, any
command sequence, any answers of the transport. -/
def State.boot (cfg : Config) (cmds : List Word) (initDraws : Draws InitAnswer) (writeDraws : Draws WriteAnswer) :
    State :=
  { life := .uninitialized
    numLeds := none
    footerLen := none
    pix := []
    hdr := #v[0x00#8, 0x00#8, 0x00#8, 0x00#8]
    ftr := []
    cfg := cfg
    cmds := cmds
    initDraws := initDraws
    writeDraws := writeDraws
    waiting := false
    faulted := false
    responses := []
    requests := [] }

/-- The machine right after reset (R33, R281): the spec's six items as it states them, the default MAXLEDS (R10), no
command presented yet, and, as a DESIGN CHOICE no statement rests on, a transport whose answers are the success
answers (log 2, log 3). -/
def State.reset : State :=
  State.boot Config.default [] { listed := [], rest := .initOk } { listed := [], rest := .writeOk }

end Sys2Proof.Machine
end

