-- ==== Sys2Proof/Machine/Flags.lean ====
section
/-! DEFINITION. The block has no status flag, no condition code and no sticky error bit (R30): the outcome of a
command is its response word, computed here (R96 to R99). -/

namespace Sys2Proof.Machine

/-- The outcomes of R97. -/
inductive Status where
  | ok
  | constructionError
  | ioError
  | lifecycleError
  | illegalCommand
deriving DecidableEq, Repr

/-- The status codes of R97. -/
def Status.code : Status → BitVec 4
  | .ok => 0x0
  | .constructionError => 0x1
  | .ioError => 0x2
  | .lifecycleError => 0x3
  | .illegalCommand => 0x4

/-- The sub-causes of a CONSTRUCTION_ERROR (R98); `none` is the zero of every other response. -/
inductive SubCause where
  | none
  | numLedsZero
  | transportInit
  | capacity
deriving DecidableEq, Repr

/-- The sub-cause codes of R98. -/
def SubCause.code : SubCause → BitVec 4
  | .none => 0
  | .numLedsZero => 1
  | .transportInit => 2
  | .capacity => 3

/-- The response word: `status` in RW[63:60], `sub` in RW[43:40], `err` in RW[39:32], `data` in RW[31:0], zero in
RW[59:44] (R96). -/
def responseWord (status : Status) (sub : SubCause) (err : Byte) (data : BitVec 32) : Word :=
  (status.code.setWidth 64 <<< 60) ||| (sub.code.setWidth 64 <<< 40) ||| (err.setWidth 64 <<< 32) ||| data.setWidth 64

/-- `RW[63:60]` (R96). -/
def statusField (w : Word) : BitVec 4 := w.extractLsb' 60 4
/-- `RW[59:44]`, zero (R96). -/
def zeroField (w : Word) : BitVec 16 := w.extractLsb' 44 16
/-- `RW[43:40]` (R96). -/
def subField (w : Word) : BitVec 4 := w.extractLsb' 40 4
/-- `RW[39:32]` (R96). -/
def errField (w : Word) : Byte := w.extractLsb' 32 8
/-- `RW[31:0]` (R96). -/
def dataField (w : Word) : BitVec 32 := w.extractLsb' 0 32

end Sys2Proof.Machine
end

