-- ==== Sys2Proof/Machine/Codec.lean ====
section
/-! DEFINITION. The pixel codec: `clamp5`, `pack`, `unpack` (R110 to R118), and the codes of LIFE (R25). -/

namespace Sys2Proof.Machine

/-- `clamp5`: a saturation at 31, not a truncation (R111). -/
def clamp5 (br : Byte) : BitVec 5 := if 31 < br.toNat then 31#5 else br.setWidth 5

/-- `pack`: brightness clamped and tagged with `0xE0`, then blue, green, red (R112). -/
def pack (r g b br : Byte) : Pixel :=
  { byte0 := 0xE0#8 ||| (clamp5 br).setWidth 8, byte1 := b, byte2 := g, byte3 := r }

/-- The tuple `(r, g, b, brightness)` that `unpack` gives (R113). -/
structure Colour where
  r : Byte
  g : Byte
  b : Byte
  brightness : Byte
deriving DecidableEq, Repr

/-- `unpack`: the three colour bytes as stored and the five low bits of the brightness byte (R113). -/
def unpack (p : Pixel) : Colour :=
  { r := p.byte3, g := p.byte2, b := p.byte1, brightness := p.byte0 &&& 0x1F#8 }

/-- `pack` of a tuple that `unpack` gave. -/
def repack (c : Colour) : Pixel := pack c.r c.g c.b c.brightness

/-- The "off" record (R117). -/
def off : Pixel := { byte0 := 0xFF#8, byte1 := 0x00#8, byte2 := 0x00#8, byte3 := 0x00#8 }

/-- A legal record: the three high bits of byte0 are `111` (R23, R110). -/
def Pixel.legal (p : Pixel) : Bool := p.byte0.extractLsb' 5 3 == 0b111#3

/-- The four bytes of a record in position order (R12, R54). -/
def Pixel.bytes (p : Pixel) : List Byte := [p.byte0, p.byte1, p.byte2, p.byte3]

/-- Byte `k` of a record, `p[k]` (R12); `k` is taken modulo 4. -/
def Pixel.byteAt (p : Pixel) (k : Nat) : Byte :=
  match k % 4 with
  | 0 => p.byte0
  | 1 => p.byte1
  | 2 => p.byte2
  | _ => p.byte3

/-- The record with byte `k` replaced; `k` is taken modulo 4. -/
def Pixel.setByteAt (p : Pixel) (k : Nat) (v : Byte) : Pixel :=
  match k % 4 with
  | 0 => { p with byte0 := v }
  | 1 => { p with byte1 := v }
  | 2 => { p with byte2 := v }
  | _ => { p with byte3 := v }

/-- The 32-bit word view of a record, byte0 in the low bits (R56; notation only, no rule depends on it). -/
def Pixel.word (p : Pixel) : BitVec 32 :=
  (p.byte3.setWidth 32 <<< 24) ||| (p.byte2.setWidth 32 <<< 16) ||| (p.byte1.setWidth 32 <<< 8) ||| p.byte0.setWidth 32

/-- The numeric code of each lifecycle state (R25; it appears in no command and no response). -/
def Life.code : Life → BitVec 2
  | .uninitialized => 0
  | .ready => 1
  | .destroyed => 2

end Sys2Proof.Machine
end

