-- ==== Sys2Proof/Machine/Framer.lean ====
section
/-! DEFINITION. The framer: footer length, header, pixel bytes, footer and frame (R190 to R197), as functions of
their parts. -/

namespace Sys2Proof.Machine

/-- `footer_len(n) = (n + 15) div 16` on natural numbers, so the sum does not wrap (R191). -/
def footerLenNat (n : Nat) : Nat := (n + 15) / 16

/-- `footer_len` of a 16-bit count, in the 13 bits of FOOTER_LEN (R27, R191). -/
def footerLenOf (n : Index) : BitVec 13 := BitVec.ofNat 13 (footerLenNat n.toNat)

/-- `FTR` as CREATE writes it: `rep(F, 0xFF)` (R29, R193). -/
def footerBytes (f : BitVec 13) : List Byte := List.replicate f.toNat 0xFF#8

/-- `PIXBYTES`: the bytes of the records in position order (R52, R194). -/
def pixBytesOf (records : List Pixel) : List Byte := records.flatMap Pixel.bytes

/-- `FRAME = HDRBYTES ++ PIXBYTES ++ FTRBYTES` (R195). -/
def frameOf (header pixels footer : List Byte) : List Byte := header ++ pixels ++ footer

/-- The frame length `L = 4 + 4*N + footer_len(N)` (R197). -/
def frameLenOf (n : Nat) : Nat := 4 + 4 * n + footerLenNat n

/-- Byte `k` of the frame, as the closed form of R196 gives it from the pixel store. -/
def frameByteOf (n : Nat) (records : List Pixel) (k : Nat) : Option Byte :=
  if k ≤ 3 then some 0x00#8
  else if k ≤ 4 * n + 3 then records[(k - 4) / 4]?.map fun p => p.byteAt ((k - 4) % 4)
  else if k ≤ frameLenOf n - 1 then some 0xFF#8
  else none

end Sys2Proof.Machine
end

