-- ==== Sys2Proof/Machine/Ops.lean ====
section
/-! DEFINITION. The named operations over the state: the response, the error responses (the block's only
"exceptions", R240), the transport requests, the shared checks and reads, the moves of the pixel store, and the
pixel byte space as a computed view (R52). -/

namespace Sys2Proof.Machine

/-! ## Elementary updates -/

/-- The response word is given to the host (R96). -/
def State.giveResponse (w : Word) (s : State) : State := { s with responses := s.responses ++ [w] }

/-- A request to the transport is recorded (R17, R32). -/
def State.logRequest (q : Request) (s : State) : State := { s with requests := s.requests ++ [q] }

/-- The pixel store holds these records (R22). -/
def State.setPix (records : List Pixel) (s : State) : State := { s with pix := records }

/-- The host's next command word has been taken. -/
def State.takeCommand (s : State) : State := { s with cmds := s.cmds.tail }

/-- The next answer of a sequence of draws. -/
def Draws.head {α : Type} (d : Draws α) : α :=
  match d.listed with
  | [] => d.rest
  | a :: _ => a

/-- The sequence after its next answer. -/
def Draws.tail {α : Type} (d : Draws α) : Draws α := { d with listed := d.listed.tail }

/-- The next answer to `T.init()` has been used. -/
def State.takeInitAnswer (s : State) : State := { s with initDraws := s.initDraws.tail }

/-- The next answer to `T.write` has been used. -/
def State.takeWriteAnswer (s : State) : State := { s with writeDraws := s.writeDraws.tail }

/-- The outstanding request is never answered: no response, and no command is taken any more (R293; log 4). -/
def State.hang (s : State) : State := { s with waiting := true }

/-- The run is marked as having gone wrong, for ever (R243; log 5). -/
def State.markFaulted (s : State) : State := { s with faulted := true }

/-- A successful CREATE: the strip is sized, its footer computed, every pixel switched off, LIFE set to Ready (R34, R211). -/
def State.sizeStrip (n : Index) (s : State) : State :=
  { s with
    numLeds := some n
    footerLen := some (footerLenOf n)
    ftr := footerBytes (footerLenOf n)
    pix := List.replicate n.toNat off
    life := .ready }

/-- DESTROY releases the storage: every sized item becomes novalue and LIFE becomes Destroyed (R35, R216). -/
def State.releaseStrip (s : State) : State :=
  { s with numLeds := none, footerLen := none, pix := [], ftr := [], life := .destroyed }

/-! ## The response, and taking an error -/

/-- `respond(status, sub, err, data)`: ends the command with its response word (R13, R96). -/
def respond (status : Status) (sub : SubCause) (err : Byte) (data : BitVec 32) (s : State) : State :=
  s.giveResponse (responseWord status sub err data)

/-- `respond(OK, 0, 0, data)`. -/
def respondOk (data : BitVec 32) (s : State) : State := respond .ok .none 0 data s

/-- ILLEGAL_COMMAND: the state is unchanged and no request is made (R85, R244). -/
def illegalCommand (s : State) : State := respond .illegalCommand .none 0 0 s

/-- LIFECYCLE_ERROR: the state is unchanged, no request is made, and the run is marked as having gone wrong
(R218, R243; log 5). -/
def lifecycleError (s : State) : State := respond .lifecycleError .none 0 0 s.markFaulted

/-! ## The transport -/

/-- `T.init()` with its answer (R262). -/
def requestInit (s : State) : State := (s.logRequest (.init s.initDraws.head)).takeInitAnswer

/-- `T.write(header, pixels, footer)` with its answer (R263). -/
def requestWrite (header pixels footer : List Byte) (s : State) : State :=
  (s.logRequest (.write header pixels footer s.writeDraws.head)).takeWriteAnswer

/-- `T.teardown()`, which has no answer (R264). -/
def requestTeardown (s : State) : State := s.logRequest .teardown

/-! ## Shared checks and reads -/

/-- The lifecycle check of every command but CREATE (R130, R218, R243). -/
def whenReady (s : State) (k : Out) : Out :=
  match s.life with
  | .ready => k
  | .uninitialized => .next (lifecycleError s)
  | .destroyed => .next (lifecycleError s)

/-- A read of NUM_LEDS (R26); reading novalue is a fault (R21). -/
def withCount (s : State) (k : Index → Out) : Out :=
  match s.numLeds with
  | some n => k n
  | none => .fault .novalueRead

/-- A read of FOOTER_LEN (R27); reading novalue is a fault (R21). -/
def withFooterLen (s : State) (k : BitVec 13 → Out) : Out :=
  match s.footerLen with
  | some f => k f
  | none => .fault .novalueRead

/-- A read of record `PIX[i]` (R22); a record that does not exist holds novalue (R21). -/
def withRecord (s : State) (i : Nat) (k : Pixel → Out) : Out :=
  match s.pix[i]? with
  | some p => k p
  | none => .fault .novalueRead

/-- A read of every record `PIX[0 .. n-1]` (R22); a record that does not exist holds novalue (R21). -/
def withStrip (s : State) (n : Index) (k : List Pixel → Out) : Out :=
  if s.pix.length = n.toNat then k s.pix else .fault .novalueRead

/-- A read of the footer bytes `FTR[0 .. f-1]` (R29); a byte that does not exist holds novalue (R21). -/
def withFooter (s : State) (f : BitVec 13) (k : List Byte → Out) : Out :=
  if s.ftr.length = f.toNat then k s.ftr else .fault .novalueRead

/-! ## Moves of the pixel store -/

/-- `PIX[i] <- p` (R13, R60): one record, all four bytes; a record that does not exist is not written. -/
def writeRecord (i : Nat) (p : Pixel) (records : List Pixel) : List Pixel := records.set i p

/-- A lane-wise command: every record is replaced by a function of itself (R155). -/
def eachLane (f : Pixel → Pixel) (records : List Pixel) : List Pixel := records.map f

/-- `PUSHF`'s parallel assignment: `PIX[0]` is `p`, `PIX[i]` is `old[i-1]`, `old[N-1]` is lost (R171). -/
def shiftBack (p : Pixel) (records : List Pixel) : List Pixel := (p :: records).take records.length

/-- `PUSHB`'s parallel assignment: `PIX[N-1]` is `p`, `PIX[i]` is `old[i+1]`, `old[0]` is lost (R172). -/
def shiftFront (p : Pixel) (records : List Pixel) : List Pixel := (records ++ [p]).drop 1

/-! ## The pixel byte space: a computed view of the store (R52; log 18) -/

/-- The byte at address `a` of the pixel byte space, `PIX[a div 4][a mod 4]` (R52). -/
def readByte (records : List Pixel) (a : Nat) : Option Byte := records[a / 4]?.map fun p => p.byteAt (a % 4)

/-- The store with the byte at address `a` replaced; an address outside the space is not written (R52). -/
def writeByte (records : List Pixel) (a : Nat) (v : Byte) : List Pixel :=
  records.modify (a / 4) fun p => p.setByteAt (a % 4) v

/-- `MemRead(a, n)`: bytes `a .. a+n-1` of PIXBYTES, or nothing where one of them does not exist (R52). -/
def memRead (records : List Pixel) (a : Nat) : Nat → Option (List Byte)
  | 0 => some []
  | n + 1 =>
    match readByte records a, memRead records (a + 1) n with
    | some b, some rest => some (b :: rest)
    | _, _ => none

/-- `MemWrite(a, len v, v)`: the bytes of `v` replace those at `a`, `a+1`, ... (R52). -/
def memWrite (records : List Pixel) (a : Nat) : List Byte → List Pixel
  | [] => records
  | b :: rest => memWrite (writeByte records a b) (a + 1) rest

/-- The pixel byte space as a list of addressed bytes, addresses from 0 upward (R52; log 18). -/
def memoryCells (records : List Pixel) : List Host.Cell :=
  (pixBytesOf records).zipIdx.map fun p => (p.2, p.1)

/-- The canonical form of a memory: strictly rising addresses, so no address twice. An unlisted address holds no
value, so there is no entry a canonical memory must leave out (R21, R52; log 18). -/
def Memory.wf (m : List Host.Cell) : Bool := decide (m.Pairwise fun x y => x.1 < y.1)

end Sys2Proof.Machine
end

