-- ==== Sys2Proof/Machine/Operands.lean ====
section
/-! DEFINITION. The operand forms. The block has one addressing mode, direct index (R130), with a silent bounds
test (R58), and immediate colour and brightness operands that the packer clamps (R82, R112). -/

namespace Sys2Proof.Machine

/-- The effective pixel of an index operand: `PIX[idx]`, the operand as it is (R51, R130). -/
def effectivePixel (idx : Index) : Nat := idx.toNat

/-- The effective byte address of an index operand, `4*idx` (R52, R130). -/
def effectiveAddr (idx : Index) : Nat := 4 * effectivePixel idx

/-- The bounds test `idx < N`, unsigned (R58, R130). -/
def inRange (idx n : Index) : Bool := decide (idx.toNat < n.toNat)

/-- The data field of a GET: `(r << 24) | (g << 16) | (b << 8) | brightness` (R99, R131). -/
def getData (c : Colour) : BitVec 32 :=
  (c.r.setWidth 32 <<< 24) ||| (c.g.setWidth 32 <<< 16) ||| (c.b.setWidth 32 <<< 8) ||| c.brightness.setWidth 32

/-- The data of an out-of-range GET: `(r, g, b, brightness) = (0, 0, 0, 0)` (R58, R99, R131; log 13). -/
def outOfRangeData : BitVec 32 := 0x00000000#32

/-- The record a colour setter stores: the new colour with the record's own brightness, read then written (R133, R153). -/
def recolour (r g b : Byte) (p : Pixel) : Pixel := pack r g b (unpack p).brightness

/-- The record a brightness setter stores: the record's own colour with the new brightness, read then written (R134, R154). -/
def rebright (br : Byte) (p : Pixel) : Pixel := pack (unpack p).r (unpack p).g (unpack p).b br

end Sys2Proof.Machine
end

