-- ==== Sys2Proof/Machine/Lifecycle.lean ====
section
/-! DEFINITION. The lifecycle and show commands CREATE, SHOW, DESTROY (R210 to R218). -/

namespace Sys2Proof.Machine

/-- CREATE once `T.init()` has answered `InitOk`: the two tests of its step (b), each rolled back by one
`T.teardown()`, then the sizing of the strip (R211, R212; log 13). -/
def buildStrip (n : Index) (s : State) : State :=
  if n.toNat = 0 then respond .constructionError .numLedsZero 0 0 (requestTeardown s)
  else if s.cfg.maxLeds.toNat < n.toNat then respond .constructionError .capacity 0 0 (requestTeardown s)
  else respondOk 0 (s.sizeStrip n)

/-- What CREATE does with the answer of `T.init()`; `s` is the state after the request (R211). -/
def afterInit (n : Index) (answer : InitAnswer) (s : State) : State :=
  match answer with
  | .initOk => buildStrip n s
  | .initError e => respond .constructionError .transportInit e 0 s
  | .silent => s.hang

/-- What SHOW does with the answer of `T.write`; `s` is the state after the request (R214). -/
def afterWrite (answer : WriteAnswer) (s : State) : State :=
  match answer with
  | .writeOk => respondOk 0 s
  | .ioError e => respond .ioError .none e 0 s
  | .silent => s.hang

/-- The state after `CREATE n` (R211): the lifecycle check, then `T.init()`, then the rest by its answer. -/
def createState (n : Index) (s : State) : State :=
  match s.life with
  | .uninitialized => afterInit n s.initDraws.head (requestInit s)
  | .ready => lifecycleError s
  | .destroyed => lifecycleError s

/-- `CREATE n` (R211). -/
def execCreate (n : Index) (s : State) : Out := .next (createState n s)

/-- `SHOW` (R214): one `T.write` with the header, the pixel bytes and the footer as they stand. -/
def execShow (s : State) : Out :=
  whenReady s <| withCount s fun n => withStrip s n fun records => withFooterLen s fun f => withFooter s f fun footer =>
    .next (afterWrite s.writeDraws.head (requestWrite s.hdr.toList (pixBytesOf records) footer s))

/-- `DESTROY` (R216, R217): the transport is torn down, then the storage is released. -/
def execDestroy (s : State) : Out :=
  whenReady s <| .next (respondOk 0 (requestTeardown s).releaseStrip)

end Sys2Proof.Machine
end

