-- ==== Sys2Proof/Machine/PixelAccess.lean ====
section
/-! DEFINITION. The per-pixel commands GET, SETCB, SETC, SETB (R130 to R136). -/

namespace Sys2Proof.Machine

/-- `GET idx` (R131). -/
def execGet (idx : Index) (s : State) : Out :=
  whenReady s <| withCount s fun n =>
    if inRange idx n then
      withRecord s (effectivePixel idx) fun p => .next (respondOk (getData (unpack p)) s)
    else .next (respondOk outOfRangeData s)

/-- `SETCB idx, r, g, b, br` (R132). -/
def execSetcb (idx : Index) (r g b br : Byte) (s : State) : Out :=
  whenReady s <| withCount s fun n =>
    if inRange idx n then
      .next (respondOk 0 (s.setPix (writeRecord (effectivePixel idx) (pack r g b br) s.pix)))
    else .next (respondOk 0 s)

/-- `SETC idx, r, g, b` (R133): the brightness is read from the pixel, then the record is written. -/
def execSetc (idx : Index) (r g b : Byte) (s : State) : Out :=
  whenReady s <| withCount s fun n =>
    if inRange idx n then
      withRecord s (effectivePixel idx) fun p =>
        .next (respondOk 0 (s.setPix (writeRecord (effectivePixel idx) (recolour r g b p) s.pix)))
    else .next (respondOk 0 s)

/-- `SETB idx, br` (R134): the colour is read from the pixel, then the record is written. -/
def execSetb (idx : Index) (br : Byte) (s : State) : Out :=
  whenReady s <| withCount s fun n =>
    if inRange idx n then
      withRecord s (effectivePixel idx) fun p =>
        .next (respondOk 0 (s.setPix (writeRecord (effectivePixel idx) (rebright br p) s.pix)))
    else .next (respondOk 0 s)

end Sys2Proof.Machine
end

