-- ==== Sys2Proof/Machine/ShiftRotate.lean ====
section
/-! DEFINITION. The shift and rotate commands PUSHF, PUSHB, ROTL, ROTR (R170 to R176), as the parallel assignments
the spec calls their meaning (log 12). -/

namespace Sys2Proof.Machine

/-- `PUSHF r, g, b, br` (R171). -/
def execPushf (r g b br : Byte) (s : State) : Out :=
  whenReady s <| withCount s fun n => withStrip s n fun records =>
    .next (respondOk 0 (s.setPix (shiftBack (pack r g b br) records)))

/-- `PUSHB r, g, b, br` (R172). -/
def execPushb (r g b br : Byte) (s : State) : Out :=
  whenReady s <| withCount s fun n => withStrip s n fun records =>
    .next (respondOk 0 (s.setPix (shiftFront (pack r g b br) records)))

/-- `ROTL` (R173): pixel 0 is read, the strip shifts toward the front, the pixel read goes to the last position. -/
def execRotl (s : State) : Out :=
  whenReady s <| withCount s fun n => withStrip s n fun records => withRecord s 0 fun p =>
    .next (respondOk 0 (s.setPix (shiftFront (repack (unpack p)) records)))

/-- `ROTR` (R174): the last pixel is read, the strip shifts toward the back, the pixel read goes to position 0. -/
def execRotr (s : State) : Out :=
  whenReady s <| withCount s fun n => withStrip s n fun records => withRecord s (n.toNat - 1) fun p =>
    .next (respondOk 0 (s.setPix (shiftBack (repack (unpack p)) records)))

end Sys2Proof.Machine
end

