-- ==== Sys2Proof/Machine/WholeStrip.lean ====
section
/-! DEFINITION. The whole-strip commands CLEAR, FILLCB, FILLC, FILLB (R150 to R155). -/

namespace Sys2Proof.Machine

/-- `CLEAR` (R151): every record becomes the "off" record. -/
def execClear (s : State) : Out :=
  whenReady s <| withCount s fun n => .next (respondOk 0 (s.setPix (List.replicate n.toNat off)))

/-- `FILLCB r, g, b, br` (R152): every record becomes `pack(r, g, b, br)`. -/
def execFillcb (r g b br : Byte) (s : State) : Out :=
  whenReady s <| withCount s fun n => .next (respondOk 0 (s.setPix (List.replicate n.toNat (pack r g b br))))

/-- `FILLC r, g, b` (R153): every record keeps its own brightness. -/
def execFillc (r g b : Byte) (s : State) : Out :=
  whenReady s <| withCount s fun n => withStrip s n fun records =>
    .next (respondOk 0 (s.setPix (eachLane (recolour r g b) records)))

/-- `FILLB br` (R154): every record keeps its own colour. -/
def execFillb (br : Byte) (s : State) : Out :=
  whenReady s <| withCount s fun n => withStrip s n fun records =>
    .next (respondOk 0 (s.setPix (eachLane (rebright br) records)))

end Sys2Proof.Machine
end

