-- ==== Sys2Proof/Machine/Dispatch.lean ====
section
/-! DEFINITION. One arm per command: what each command does when it executes. -/

namespace Sys2Proof.Machine

def exec (i : Instr) (s : State) : Host.Outcome State Fault Refusal :=
  match i with
  | .create n => Sys2Proof.Machine.execCreate n s
  | .destroy => Sys2Proof.Machine.execDestroy s
  | .showStrip => Sys2Proof.Machine.execShow s
  | .get idx => Sys2Proof.Machine.execGet idx s
  | .setcb idx r g b br => Sys2Proof.Machine.execSetcb idx r g b br s
  | .setc idx r g b => Sys2Proof.Machine.execSetc idx r g b s
  | .setb idx br => Sys2Proof.Machine.execSetb idx br s
  | .clear => Sys2Proof.Machine.execClear s
  | .fillcb r g b br => Sys2Proof.Machine.execFillcb r g b br s
  | .fillc r g b => Sys2Proof.Machine.execFillc r g b s
  | .fillb br => Sys2Proof.Machine.execFillb br s
  | .pushf r g b br => Sys2Proof.Machine.execPushf r g b br s
  | .pushb r g b br => Sys2Proof.Machine.execPushb r g b br s
  | .rotl => Sys2Proof.Machine.execRotl s
  | .rotr => Sys2Proof.Machine.execRotr s

end Sys2Proof.Machine
end

