-- ==== Sys2Proof/WellFormed.lean ====
section
/-! DEFINITION. Well-formedness. Every term of `Instr` is well formed by its type: each operand has the width of
its field (R80). What can be ill formed is a source line (R88): its checks are here, and what passes them has an
encoding. -/

namespace Sys2Proof

/-- The largest value of an operand field (R80, R82, R88). -/
def Field.maxValue : Field → Int
  | .idx => 65535
  | .r => 255
  | .g => 255
  | .b => 255
  | .br => 255

/-- An operand fits its field: not negative, not above the field's largest value (R88). -/
def Field.fits (f : Field) (v : Int) : Bool := decide (0 ≤ v ∧ v ≤ f.maxValue)

/-- The line has as many operands as the command's format has fields (R81, R88). -/
def AsmLine.countOk (l : AsmLine) : Bool :=
  decide (l.operands.length = l.mnemonic.format.fields.length)

/-- Every operand fits its field (R88). -/
def AsmLine.operandsFit (l : AsmLine) : Bool :=
  (l.mnemonic.format.fields.zip l.operands).all fun p => p.1.fits p.2

/-- The assembler accepts the line (R88). -/
def AsmLine.wellFormed (l : AsmLine) : Bool := l.countOk && l.operandsFit

end Sys2Proof
end

