-- ==== Sys2Proof/Decode.lean ====
section
/-! DEFINITION. The decoder, total on 64-bit words and rejecting by name (R85, R100), and the encoder (R90), both
written from the tables of R80, R81 and R83. -/

namespace Sys2Proof

/-- `CW[63:60]`, the operation code (R80). -/
def opField (w : Word) : BitVec 4 := w.extractLsb' 60 4
/-- `CW[59:48]`, reserved (R80). -/
def rsvField (w : Word) : BitVec 12 := w.extractLsb' 48 12
/-- `CW[47:32]`, the pixel index or the LED count (R80). -/
def idxField (w : Word) : Index := w.extractLsb' 32 16
/-- `CW[31:24]`, red (R80). -/
def rField (w : Word) : Byte := w.extractLsb' 24 8
/-- `CW[23:16]`, green (R80). -/
def gField (w : Word) : Byte := w.extractLsb' 16 8
/-- `CW[15:8]`, blue (R80). -/
def bField (w : Word) : Byte := w.extractLsb' 8 8
/-- `CW[7:0]`, brightness (R80). -/
def brField (w : Word) : Byte := w.extractLsb' 0 8

/-- Why a word is no command (R85). -/
inductive Illegal where
  /-- `rsv` is not zero. -/
  | reservedBits
  /-- `op` is 0. -/
  | reservedOpcode
deriving DecidableEq, Repr

/-- What the decoder gives for a word (R100). -/
inductive Decoded where
  | instr (i : Instr)
  | illegal (why : Illegal)
deriving DecidableEq, Repr

/-- The command that operation code `op` selects, with the operands its format takes from the word (R83, R100). -/
def decodeOp (op : Nat) (w : Word) : Decoded :=
  match op with
  | 0x1 => .instr (.create (idxField w))
  | 0x2 => .instr .destroy
  | 0x3 => .instr .showStrip
  | 0x4 => .instr (.get (idxField w))
  | 0x5 => .instr (.setcb (idxField w) (rField w) (gField w) (bField w) (brField w))
  | 0x6 => .instr (.setc (idxField w) (rField w) (gField w) (bField w))
  | 0x7 => .instr (.setb (idxField w) (brField w))
  | 0x8 => .instr .clear
  | 0x9 => .instr (.fillcb (rField w) (gField w) (bField w) (brField w))
  | 0xA => .instr (.fillc (rField w) (gField w) (bField w))
  | 0xB => .instr (.fillb (brField w))
  | 0xC => .instr (.pushf (rField w) (gField w) (bField w) (brField w))
  | 0xD => .instr (.pushb (rField w) (gField w) (bField w) (brField w))
  | 0xE => .instr .rotl
  | 0xF => .instr .rotr
  | _ => .illegal .reservedOpcode

/-- The decoder in full (R100): the reserved field is tested first, then the operation code selects. -/
def decode (w : Word) : Decoded :=
  if rsvField w ≠ 0 then .illegal .reservedBits else decodeOp (opField w).toNat w

/-- The operation codes of R83. -/
def Mnemonic.opcode : Mnemonic → BitVec 4
  | .CREATE => 0x1
  | .DESTROY => 0x2
  | .SHOW => 0x3
  | .GET => 0x4
  | .SETCB => 0x5
  | .SETC => 0x6
  | .SETB => 0x7
  | .CLEAR => 0x8
  | .FILLCB => 0x9
  | .FILLC => 0xA
  | .FILLB => 0xB
  | .PUSHF => 0xC
  | .PUSHB => 0xD
  | .ROTL => 0xE
  | .ROTR => 0xF

/-- `(op << 60) | (idx << 32) | (r << 24) | (g << 16) | (b << 8) | br`, with `rsv = 0` (R80, R90). -/
def commandWord (op : BitVec 4) (idx : Index) (r g b br : Byte) : Word :=
  (op.setWidth 64 <<< 60) ||| (idx.setWidth 64 <<< 32) ||| (r.setWidth 64 <<< 24) ||| (g.setWidth 64 <<< 16) |||
    (b.setWidth 64 <<< 8) ||| br.setWidth 64

/-- The canonical encoding: zero in every field the command's format does not use (R86, R90). -/
def encode (i : Instr) : Word :=
  match i with
  | .create n => commandWord i.mnemonic.opcode n 0 0 0 0
  | .destroy => commandWord i.mnemonic.opcode 0 0 0 0 0
  | .showStrip => commandWord i.mnemonic.opcode 0 0 0 0 0
  | .get idx => commandWord i.mnemonic.opcode idx 0 0 0 0
  | .setcb idx r g b br => commandWord i.mnemonic.opcode idx r g b br
  | .setc idx r g b => commandWord i.mnemonic.opcode idx r g b 0
  | .setb idx br => commandWord i.mnemonic.opcode idx 0 0 0 br
  | .clear => commandWord i.mnemonic.opcode 0 0 0 0 0
  | .fillcb r g b br => commandWord i.mnemonic.opcode 0 r g b br
  | .fillc r g b => commandWord i.mnemonic.opcode 0 r g b 0
  | .fillb br => commandWord i.mnemonic.opcode 0 0 0 0 br
  | .pushf r g b br => commandWord i.mnemonic.opcode 0 r g b br
  | .pushb r g b br => commandWord i.mnemonic.opcode 0 r g b br
  | .rotl => commandWord i.mnemonic.opcode 0 0 0 0 0
  | .rotr => commandWord i.mnemonic.opcode 0 0 0 0 0

/-- The bits of `op` and `rsv`: the one mask of every command (R83). -/
def opcodeMask : Word := 0xFFFF000000000000#64

/-- The match pattern of a command, `op << 60` (R83). -/
def Mnemonic.matchWord (m : Mnemonic) : Word := m.opcode.setWidth 64 <<< 60

/-- The bits of one operand field in the command word (R80). -/
def Field.mask : Field → Word
  | .idx => 0x0000FFFF00000000#64
  | .r => 0x00000000FF000000#64
  | .g => 0x0000000000FF0000#64
  | .b => 0x000000000000FF00#64
  | .br => 0x00000000000000FF#64

/-- The bits a command of the format uses: `op`, `rsv` and its operand fields (R81). -/
def Format.usedMask (f : Format) : Word := f.fields.foldl (fun m x => m ||| x.mask) opcodeMask

/-- The word of `nbits` bits numbered as the opcode table numbers them, with zero in every bit above them (log 9). -/
def tableWord (nbits w : Nat) : Word := BitVec.ofNat 64 (w % 2 ^ nbits)

/-- The instruction the decoder reads from a word given as the opcode table gives it (log 9). -/
def decodeTableWord (nbits w : Nat) : Option Instr :=
  match decode (tableWord nbits w) with
  | .instr i => some i
  | .illegal _ => none

end Sys2Proof
end

