-- ==== Sys2Proof/Machine/Port.lean ====
section
/-! DEFINITION. The command port: what the block takes from the host next. The block fetches nothing from memory
(R24); a command word is presented to it whole, one at a time, each after the response to the one before
(R64, R290; log 2). -/

namespace Sys2Proof.Machine

/-- What stands at the command port. -/
inductive Presented where
  /-- No command is taken: the host has none to issue (R270), or a transport request is outstanding (R293). -/
  | nothing
  /-- A word that spells no command (R85). -/
  | illegal (why : Illegal)
  /-- A command. -/
  | command (i : Instr)
deriving DecidableEq, Repr

/-- What a presented word is (R100). -/
def presentedWord (w : Word) : Presented :=
  match decode w with
  | .instr i => .command i
  | .illegal why => .illegal why

/-- What stands at the command port of this state (R270, R290, R293). -/
def presented (s : State) : Presented :=
  if s.waiting then .nothing
  else
    match s.cmds with
    | [] => .nothing
    | w :: _ => presentedWord w

/-- The host issues the word next: it stands first among its commands, and no request is outstanding, so the block
takes it at once (log 16). -/
def placeWord (w : Word) (s : State) : State := { s with cmds := w :: s.cmds, waiting := false }

end Sys2Proof.Machine
end

