-- ==== Sys2Proof/Machine/Step.lean ====
section
/-! DEFINITION. One step of the machine: the block executes the command at its port, whole (R14), answers a word that
is no command with ILLEGAL_COMMAND before any other check (R85, R248; log 8), or is idle and keeps its state (R270, R293). -/

namespace Sys2Proof.Machine

/-- One step. -/
def step (s : State) : Host.Outcome State Fault Refusal :=
  match presented s with
  | .nothing => .next s
  | .illegal _ => .next (illegalCommand s.takeCommand)
  | .command i => exec i s.takeCommand

/-- The state in which the next step takes the word of `nbits` bits `w`, numbered as the opcode table numbers it
(log 9, log 16). -/
def State.withFetchWord (s : State) (nbits w : Nat) : State := placeWord (tableWord nbits w) s

end Sys2Proof.Machine
end

