-- ==== Sys2Proof/Machine/Assembler.lean ====
section
/-! DEFINITION. The assembler (R88): from a line of text to a command word. The text is a list of characters. What
the spec leaves open of the text (spaces, the case of hexadecimal digits) is log 15. -/

namespace Sys2Proof.Machine

/-- The command a well-formed line stands for: its operands in the order of its format's fields (R81, R88). A line
the checks refuse has no encoding and gives nothing. -/
def toInstr (l : AsmLine) : Option Instr :=
  if l.wellFormed then
    match l.mnemonic, l.operands with
    | .CREATE, [n] => some (.create (BitVec.ofInt 16 n))
    | .DESTROY, [] => some .destroy
    | .SHOW, [] => some .showStrip
    | .GET, [i] => some (.get (BitVec.ofInt 16 i))
    | .SETCB, [i, r, g, b, br] =>
      some (.setcb (BitVec.ofInt 16 i) (BitVec.ofInt 8 r) (BitVec.ofInt 8 g) (BitVec.ofInt 8 b) (BitVec.ofInt 8 br))
    | .SETC, [i, r, g, b] => some (.setc (BitVec.ofInt 16 i) (BitVec.ofInt 8 r) (BitVec.ofInt 8 g) (BitVec.ofInt 8 b))
    | .SETB, [i, br] => some (.setb (BitVec.ofInt 16 i) (BitVec.ofInt 8 br))
    | .CLEAR, [] => some .clear
    | .FILLCB, [r, g, b, br] =>
      some (.fillcb (BitVec.ofInt 8 r) (BitVec.ofInt 8 g) (BitVec.ofInt 8 b) (BitVec.ofInt 8 br))
    | .FILLC, [r, g, b] => some (.fillc (BitVec.ofInt 8 r) (BitVec.ofInt 8 g) (BitVec.ofInt 8 b))
    | .FILLB, [br] => some (.fillb (BitVec.ofInt 8 br))
    | .PUSHF, [r, g, b, br] =>
      some (.pushf (BitVec.ofInt 8 r) (BitVec.ofInt 8 g) (BitVec.ofInt 8 b) (BitVec.ofInt 8 br))
    | .PUSHB, [r, g, b, br] =>
      some (.pushb (BitVec.ofInt 8 r) (BitVec.ofInt 8 g) (BitVec.ofInt 8 b) (BitVec.ofInt 8 br))
    | .ROTL, [] => some .rotl
    | .ROTR, [] => some .rotr
    | _, _ => none
  else none

/-- The word the assembler emits for a line, or nothing where it refuses the line (R88, R90). -/
def assemble (l : AsmLine) : Option Word := (toInstr l).map encode

/-- The operands of a command in the order of the source's argument lists (R88). -/
def operandsOf : Instr → List Int
  | .create n => [n.toNat]
  | .destroy => []
  | .showStrip => []
  | .get idx => [idx.toNat]
  | .setcb idx r g b br => [idx.toNat, r.toNat, g.toNat, b.toNat, br.toNat]
  | .setc idx r g b => [idx.toNat, r.toNat, g.toNat, b.toNat]
  | .setb idx br => [idx.toNat, br.toNat]
  | .clear => []
  | .fillcb r g b br => [r.toNat, g.toNat, b.toNat, br.toNat]
  | .fillc r g b => [r.toNat, g.toNat, b.toNat]
  | .fillb br => [br.toNat]
  | .pushf r g b br => [r.toNat, g.toNat, b.toNat, br.toNat]
  | .pushb r g b br => [r.toNat, g.toNat, b.toNat, br.toNat]
  | .rotl => []
  | .rotr => []

/-- The source line of a command (R88). -/
def toLine (i : Instr) : AsmLine := { mnemonic := i.mnemonic, operands := operandsOf i }

/-! ## Reading the text of a line -/

/-- The mnemonics as text, in capitals (R83, R88). -/
def readMnemonic (t : List Char) : Option Mnemonic :=
  match t with
  | ['C', 'R', 'E', 'A', 'T', 'E'] => some .CREATE
  | ['D', 'E', 'S', 'T', 'R', 'O', 'Y'] => some .DESTROY
  | ['S', 'H', 'O', 'W'] => some .SHOW
  | ['G', 'E', 'T'] => some .GET
  | ['S', 'E', 'T', 'C', 'B'] => some .SETCB
  | ['S', 'E', 'T', 'C'] => some .SETC
  | ['S', 'E', 'T', 'B'] => some .SETB
  | ['C', 'L', 'E', 'A', 'R'] => some .CLEAR
  | ['F', 'I', 'L', 'L', 'C', 'B'] => some .FILLCB
  | ['F', 'I', 'L', 'L', 'C'] => some .FILLC
  | ['F', 'I', 'L', 'L', 'B'] => some .FILLB
  | ['P', 'U', 'S', 'H', 'F'] => some .PUSHF
  | ['P', 'U', 'S', 'H', 'B'] => some .PUSHB
  | ['R', 'O', 'T', 'L'] => some .ROTL
  | ['R', 'O', 'T', 'R'] => some .ROTR
  | _ => none

/-- A space or a tab. -/
def isBlank (c : Char) : Bool := c == ' ' || c == '\t'

/-- The text without the blanks at its two ends. -/
def trim (t : List Char) : List Char := ((t.dropWhile isBlank).reverse.dropWhile isBlank).reverse

/-- The value of a digit character in the given base (10 or 16). -/
def readDigit (base : Nat) (c : Char) : Option Nat :=
  let k := c.toNat
  let v := if 48 ≤ k ∧ k ≤ 57 then k - 48
    else if 97 ≤ k ∧ k ≤ 102 then k - 87
    else if 65 ≤ k ∧ k ≤ 70 then k - 55
    else base
  if v < base then some v else none

/-- The number that the digits spell after `acc`. -/
def readDigits (base : Nat) (acc : Nat) : List Char → Option Nat
  | [] => some acc
  | c :: rest =>
    match readDigit base c with
    | some d => readDigits base (acc * base + d) rest
    | none => none

/-- An unsigned number: decimal, or hexadecimal after `0x` (R88). -/
def readNat (t : List Char) : Option Nat :=
  match t with
  | [] => none
  | '0' :: 'x' :: c :: rest => readDigits 16 0 (c :: rest)
  | c :: rest => readDigits 10 0 (c :: rest)

/-- A number, negative where a minus sign stands before it, so that it can be refused (R88). -/
def readInt (t : List Char) : Option Int :=
  match t with
  | '-' :: rest => (readNat rest).map fun n => -(n : Int)
  | _ => (readNat t).map fun n => (n : Int)

/-- The pieces of the text between commas; `piece` is the piece being read, reversed. -/
def splitCommas (piece : List Char) : List Char → List (List Char)
  | [] => [piece.reverse]
  | ',' :: rest => piece.reverse :: splitCommas [] rest
  | c :: rest => splitCommas (c :: piece) rest

/-- All the numbers, or nothing where one of the pieces is no number. -/
def readOperands : List (List Char) → Option (List Int)
  | [] => some []
  | t :: rest =>
    match readInt (trim t), readOperands rest with
    | some v, some vs => some (v :: vs)
    | _, _ => none

/-- A line of text: a mnemonic, its operands between commas, and a comment after `;` (R88). -/
def readLine (text : List Char) : Option AsmLine :=
  let t := trim (text.takeWhile (· ≠ ';'))
  let operands := trim (t.dropWhile fun c => !isBlank c)
  match readMnemonic (t.takeWhile fun c => !isBlank c),
      (if operands.isEmpty then some [] else readOperands (splitCommas [] operands)) with
  | some m, some vs => some { mnemonic := m, operands := vs }
  | _, _ => none

/-- The word for a line of text, or nothing where the assembler refuses the line (R88). -/
def assembleText (text : List Char) : Option Word := (readLine text).bind assemble

end Sys2Proof.Machine
end

