-- ==== Sys2Proof/Machine/Instances.lean ====
section
/-! DEFINITION. Several block instances (R268): each has its own state and its own transport; they share nothing and
do not communicate (log 14). -/

namespace Sys2Proof.Machine

/-- Several block instances, each with a state of its own (R268). -/
abbrev System := List State

/-- Instance `i` takes one step; where there is no such instance, nothing happens (R268). -/
def System.stepAt (sys : System) (i : Nat) : Host.Outcome System Fault Refusal :=
  match sys[i]? with
  | none => .next sys
  | some s =>
    match step s with
    | .next t => .next (sys.set i t)
    | .fault f => .fault f
    | .refused r => .refused r

end Sys2Proof.Machine
end

