-- ==== Sys2Proof/Machine/Loops.lean ====
section
/-! DEFINITION. The loops of the spec's pseudocode, run one index after the other as a sequential implementation
would (R13, R151 to R154, R171 to R174). The meanings use the parallel form, which the spec calls the meaning; that
the two agree is an obligation (log 12). -/

namespace Sys2Proof.Machine

/-- `for i from a to a + count - 1`: ascending, empty when `count` is 0 (R13). -/
def forUp (body : Nat → List Pixel → List Pixel) (a : Nat) : Nat → List Pixel → List Pixel
  | 0, records => records
  | count + 1, records => forUp body (a + 1) count (body a records)

/-- `for i from a + count - 1 downto a`: descending, empty when `count` is 0 (R13). -/
def forDown (body : Nat → List Pixel → List Pixel) (a : Nat) : Nat → List Pixel → List Pixel
  | 0, records => records
  | count + 1, records => forDown body a count (body (a + count) records)

/-- `PIX[dst] <- PIX[src]`; a record that does not exist is neither read nor written. -/
def copyRecord (dst src : Nat) (records : List Pixel) : List Pixel :=
  match records[src]? with
  | some p => writeRecord dst p records
  | none => records

/-- `PIX[i] <- f(PIX[i])`, one lane of a whole-strip command (R155). -/
def lane (f : Pixel → Pixel) (i : Nat) (records : List Pixel) : List Pixel :=
  match records[i]? with
  | some p => writeRecord i (f p) records
  | none => records

/-- The loop of PUSHF (R171): `for i from N-1 downto 1: PIX[i] <- PIX[i-1]`, then `PIX[0] <- p`. -/
def loopPushFront (n : Nat) (p : Pixel) (records : List Pixel) : List Pixel :=
  writeRecord 0 p (forDown (fun i => copyRecord i (i - 1)) 1 (n - 1) records)

/-- The loop of PUSHB (R172): `for i from 0 to N-2: PIX[i] <- PIX[i+1]`, then `PIX[N-1] <- p`. -/
def loopPushBack (n : Nat) (p : Pixel) (records : List Pixel) : List Pixel :=
  writeRecord (n - 1) p (forUp (fun i => copyRecord i (i + 1)) 0 (n - 1) records)

end Sys2Proof.Machine
end

