-- ==== Sys2Proof/Safety.lean ====
section
/-! DEFINITION. The terms in which statements are made: the invariant, the unchanged block, reachable states, the
shape of the transport requests, and which runs are safe. -/

namespace Sys2Proof.Machine

/-- The spec's six items are the same in both states (R20). -/
structure SameBlock (s t : State) : Prop where
  life : t.life = s.life
  numLeds : t.numLeds = s.numLeds
  footerLen : t.footerLen = s.footerLen
  pix : t.pix = s.pix
  hdr : t.hdr = s.hdr
  ftr : t.ftr = s.ftr

/-- The sized items of a Ready block with `n` pixels agree with each other (R22, R23, R26, R27, R29). -/
structure State.Sized (s : State) (n : Index) : Prop where
  numLeds : s.numLeds = some n
  positive : 1 ≤ n.toNat
  capacity : n.toNat ≤ s.cfg.maxLeds.toNat
  footerLen : s.footerLen = some (footerLenOf n)
  ftr : s.ftr = footerBytes (footerLenOf n)
  length : s.pix.length = n.toNat
  legal : ∀ p ∈ s.pix, p.legal = true

/-- The sized items hold no value (R21, R33, R35). -/
structure State.Unsized (s : State) : Prop where
  numLeds : s.numLeds = none
  footerLen : s.footerLen = none
  pix : s.pix = []
  ftr : s.ftr = []

/-- The invariant of the block: HDR is the constant header (R28); in Ready the sized items agree and every record is
legal (R22, R23, R26, R27, R29); in the other two lifecycle states they hold no value (R33, R35). -/
structure State.Inv (s : State) : Prop where
  hdr : s.hdr = #v[0x00#8, 0x00#8, 0x00#8, 0x00#8]
  sized : s.life = .ready → ∃ n, s.Sized n
  unsized : s.life ≠ .ready → s.Unsized

/-- `t` is reached from `s` by steps of the machine. -/
inductive Reach (s : State) : State → Prop where
  | refl : Reach s s
  | tail (t u : State) : Reach s t → step t = .next u → Reach s u

/-- The state is reached in some run from reset: any MAXLEDS, any commands of the host, any answers of the transport. -/
def Reachable (t : State) : Prop :=
  ∃ cfg cmds initDraws writeDraws, Reach (State.boot cfg cmds initDraws writeDraws) t

/-- The run so far is safe: it has met no use that the source leaves undefined (R243, 93 U1 to U3, U11; log 5). -/
def State.safe (s : State) : Bool := !s.faulted

/-! ## Transport requests (R266) -/

/-- A `write` that the transport answered. -/
def Request.answeredWrite : Request → Bool
  | .write _ _ _ .writeOk => true
  | .write _ _ _ (.ioError _) => true
  | _ => false

/-- A `write`, answered or not. -/
def Request.isWrite : Request → Bool
  | .write _ _ _ _ => true
  | _ => false

/-- A request that is never answered (R265, R293). -/
def Request.unanswered : Request → Bool
  | .init .silent => true
  | .write _ _ _ .silent => true
  | _ => false

/-- `( init[fail] | init[ok] teardown )*`: failed CREATEs only (R266). -/
inductive RolledBack : List Request → Prop where
  | none : RolledBack []
  | failed (e : Byte) (rest : List Request) : RolledBack rest → RolledBack (.init (.initError e) :: rest)
  | undone (rest : List Request) : RolledBack rest → RolledBack (.init .initOk :: .teardown :: rest)

/-- `init[ok] write*` after failed CREATEs (R266). -/
def Acquired (rs : List Request) : Prop :=
  ∃ before writes, RolledBack before ∧ (∀ q ∈ writes, q.answeredWrite = true) ∧ rs = before ++ .init .initOk :: writes

/-- The shape of the requests of a run whose requests have all been answered (R266). -/
def RequestShape (rs : List Request) : Prop :=
  RolledBack rs ∨ Acquired rs ∨ ∃ before, Acquired before ∧ rs = before ++ [.teardown]

/-- The recorded requests fit the lifecycle state (R210, R266): only failed CREATEs before Ready, an acquired
transport in Ready, and a released one in Destroyed; a run that hangs has one unanswered request at its end (R293). -/
structure State.TransportInv (s : State) : Prop where
  uninitialized : s.waiting = false → s.life = .uninitialized → RolledBack s.requests
  ready : s.waiting = false → s.life = .ready → Acquired s.requests
  destroyed : s.waiting = false → s.life = .destroyed → ∃ before, Acquired before ∧ s.requests = before ++ [.teardown]
  hanging : s.waiting = true → ∃ before q, s.requests = before ++ [q] ∧ q.unanswered = true ∧ RequestShape before

/-! ## Responses (R96 to R98) -/

/-- The response word has the form of R96 to R98: a status of R97, sixteen zero bits, a sub-cause only with
CONSTRUCTION_ERROR, a transport code only with TRANSPORT_INIT or IO_ERROR, data only with OK. -/
structure GoodResponse (w : Word) : Prop where
  status : (statusField w).toNat ≤ 4
  zero : zeroField w = 0
  sub : (statusField w = 1 ∧ 1 ≤ (subField w).toNat ∧ (subField w).toNat ≤ 3) ∨ (statusField w ≠ 1 ∧ subField w = 0)
  err : errField w ≠ 0 → (statusField w = 1 ∧ subField w = 2) ∨ statusField w = 2
  data : dataField w ≠ 0 → statusField w = 0

/-- The commands that are valid in a lifecycle state (R218). -/
def validIn (i : Instr) (life : Life) : Bool :=
  match life with
  | .uninitialized => i.mnemonic == .CREATE
  | .ready => i.mnemonic != .CREATE
  | .destroyed => false

/-- Runs a list of commands one after the other, each on the state the one before left (R64). -/
def execAll : List Instr → State → Out
  | [], s => .next s
  | i :: rest, s =>
    match exec i s with
    | .next t => execAll rest t
    | .fault f => .fault f
    | .refused r => .refused r

/-- The command runs, goes on, and is answered with the response word `w`. -/
def Answers (i : Instr) (s : State) (w : Word) (t : State) : Prop :=
  exec i s = .next t ∧ t.responses = s.responses ++ [w]

/-- The command is answered LIFECYCLE_ERROR: the six items are unchanged and no request is made (R218). -/
def LifecycleRefused (i : Instr) (s : State) : Prop :=
  ∃ t, exec i s = .next t ∧ SameBlock s t ∧ t.requests = s.requests ∧
    t.responses = s.responses ++ [0x3000000000000000#64]

/-- The index that a natural number below 65536 stands for. -/
def indexOf (k : Nat) : Index := BitVec.ofNat 16 k

end Sys2Proof.Machine
end

