-- ==== Sys2Proof/Certificates/Slice0/Obligations.lean ====
section
/-! DEFINITION. The statements for the provers. Where a statement speaks of a Ready block it assumes the invariant
`State.Inv` only where a clause could fail in a state no run reaches; that the invariant holds at reset and is kept by
every step are statements of their own. Response words are written out: `0#64` is OK without data,
`0x3000000000000000#64` LIFECYCLE_ERROR, `0x4000000000000000#64` ILLEGAL_COMMAND (R96, R97). -/

open Sys2Proof Sys2Proof.Machine

/-! ## Encoding -/

/-- Decoding an encoding gives the command back, and encoding a decoded word gives the word with the fields its format
does not use set to zero, so it is the word itself exactly for canonical words (R90, R100). -/
def Obligations.DecodeAndEncodeAgree : Prop :=
  (∀ i : Instr, decode (encode i) = .instr i) ∧
  (∀ (w : Word) (i : Instr), decode w = .instr i → encode i = w &&& i.mnemonic.format.usedMask) ∧
  (∀ (w : Word) (i : Instr), decode w = .instr i → (encode i = w ↔ ∀ f : Field, f ∉ i.mnemonic.format.fields → w &&& f.mask = 0))

/-- R86: words that agree on the fields the command's format uses give the same behaviour, and the canonical encoding
has zero in every unused field. -/
def Obligations.UnusedFieldsAreIgnored : Prop :=
  (∀ (w v : Word) (i : Instr), decode w = .instr i →
    v &&& i.mnemonic.format.usedMask = w &&& i.mnemonic.format.usedMask →
    decode v = .instr i ∧
    ∀ (s : State) (rest : List Word), s.waiting = false → step { s with cmds := v :: rest } = step { s with cmds := w :: rest }) ∧
  (∀ (i : Instr) (f : Field), f ∉ i.mnemonic.format.fields → encode i &&& f.mask = 0)

/-- R83: the table of operation codes and formats; a word is a command exactly when `w & mask = op << 60`; operation code 0 is
illegal. -/
def Obligations.MatchAndMaskSelectTheCommand : Prop :=
  (∀ w : Word, opField w = 0 → ∃ why, decode w = .illegal why) ∧
  ∀ row ∈ [(Mnemonic.CREATE, 0x1, Format.N), (.DESTROY, 0x2, .Z), (.SHOW, 0x3, .Z), (.GET, 0x4, .I), (.SETCB, 0x5, .IP),
      (.SETC, 0x6, .IC), (.SETB, 0x7, .IB), (.CLEAR, 0x8, .Z), (.FILLCB, 0x9, .P), (.FILLC, 0xA, .C), (.FILLB, 0xB, .B),
      (.PUSHF, 0xC, .P), (.PUSHB, 0xD, .P), (.ROTL, 0xE, .Z), (.ROTR, 0xF, .Z)],
    row.1.format = row.2.2 ∧
    ∀ w : Word, (∃ i, decode w = .instr i ∧ i.mnemonic = row.1) ↔
      w &&& 0xFFFF000000000000#64 = BitVec.ofNat 64 row.2.1 <<< 60

/-- R85: a word with `op = 0` or `rsv` not zero is illegal; it is answered ILLEGAL_COMMAND in every lifecycle state, with no
other change and no transport request; the all-zero word is such a word. -/
def Obligations.IllegalWordIsAnsweredFirst : Prop :=
  (∀ w : Word, (∃ why, decode w = .illegal why) ↔ opField w = 0 ∨ rsvField w ≠ 0) ∧
  (∀ (s : State) (w : Word) (rest : List Word), s.waiting = false → s.cmds = w :: rest → opField w = 0 ∨ rsvField w ≠ 0 →
    step s = .next { s with cmds := rest, responses := s.responses ++ [0x4000000000000000#64] }) ∧
  opField 0#64 = 0

/-- A few words written out from R80 and R83 decode to their commands, one per family and format, with junk in unused
fields in two of them. -/
def Obligations.WordsDecodeToTheirCommands : Prop :=
  decode 0x1000000300000000#64 = .instr (.create 3) ∧
  decode 0x30000007AABBCCDD#64 = .instr .showStrip ∧
  decode 0x5000000211223344#64 = .instr (.setcb 2 0x11 0x22 0x33 0x44) ∧
  decode 0x600000010A141EFF#64 = .instr (.setc 1 10 20 30) ∧
  decode 0x7000000200000044#64 = .instr (.setb 2 0x44) ∧
  decode 0xA000000011223300#64 = .instr (.fillc 0x11 0x22 0x33) ∧
  decode 0xD000000011223344#64 = .instr (.pushb 0x11 0x22 0x33 0x44) ∧
  decode 0xF000000000000000#64 = .instr .rotr

/-- A step takes the host's next word off its list and runs the decoded command; with no word to take, or while a
request is outstanding, the state is kept; a placed word is run by the very next step. The model's own choices, and no
rule of the spec: the list of words as the host's input (log 2), the state kept by a step while a request is never
answered (R293; log 4), and that a placed word stands first and clears `waiting` (log 16). -/
def Obligations.StepRunsTheDecodedCommand : Prop :=
  (∀ (s : State) (w : Word) (rest : List Word) (i : Instr), s.waiting = false → s.cmds = w :: rest → decode w = .instr i →
    step s = exec i { s with cmds := rest }) ∧
  (∀ s : State, s.cmds = [] ∨ s.waiting = true → step s = .next s) ∧
  (∀ (s : State) (i : Instr), step (s.withFetchWord 64 (encode i).toNat) = exec i { s with waiting := false })

/-- R96 to R98: the fields of a response word read back what `respond` was given, and different outcomes give different words. -/
def Obligations.ResponseFieldsReadBack : Prop :=
  (∀ (status : Status) (sub : SubCause) (err : Byte) (data : BitVec 32),
    statusField (responseWord status sub err data) = status.code ∧ zeroField (responseWord status sub err data) = 0 ∧
    subField (responseWord status sub err data) = sub.code ∧ errField (responseWord status sub err data) = err ∧
    dataField (responseWord status sub err data) = data) ∧
  (∀ (st st' : Status) (sub sub' : SubCause) (e e' : Byte) (d d' : BitVec 32),
    responseWord st sub e d = responseWord st' sub' e' d' → st = st' ∧ sub = sub' ∧ e = e' ∧ d = d')

/-- Every response the block gives has the form of R96 to R98: steps keep a record of well-formed responses well formed. -/
def Obligations.ResponsesStayWellFormed : Prop :=
  ∀ s t : State, (∀ w ∈ s.responses, GoodResponse w) → step s = .next t → ∀ w ∈ t.responses, GoodResponse w

/-- Every command is answered by exactly one response word, unless its transport request is never answered (R96, R293);
the word is taken from the host's list. -/
def Obligations.OneResponsePerCommand : Prop :=
  ∀ (s t : State) (w : Word) (rest : List Word), s.waiting = false → s.cmds = w :: rest → step s = .next t →
    t.cmds = rest ∧ (t.waiting = false → ∃ rw, t.responses = s.responses ++ [rw]) ∧
    (t.waiting = true → t.responses = s.responses)

/-! ## Pixel codec -/

/-- R111, R112, R113: clamp, pack and unpack, with the ranges the rules give. -/
def Obligations.CodecFollowsItsFormulas : Prop :=
  (∀ br : Byte, (clamp5 br).toNat = min br.toNat 31) ∧
  (∀ r g b br : Byte, (pack r g b br).bytes = [0xE0#8 ||| BitVec.ofNat 8 (min br.toNat 31), b, g, r] ∧
    (pack r g b br).byte0.toNat = 0xE0 + min br.toNat 31) ∧
  (∀ p : Pixel, (unpack p).r = p.byteAt 3 ∧ (unpack p).g = p.byteAt 2 ∧ (unpack p).b = p.byteAt 1 ∧
    (unpack p).brightness = p.byteAt 0 &&& 0x1F#8 ∧ (unpack p).brightness.toNat ≤ 31)

/-- R114: the round trips of pack and unpack; a record with other top bits does not occur in a Ready state that meets the
invariant; clamping twice is clamping once. -/
def Obligations.CodecRoundTrips : Prop :=
  (∀ r g b br : Byte, unpack (pack r g b br) = { r := r, g := g, b := b, brightness := BitVec.ofNat 8 (min br.toNat 31) }) ∧
  (∀ p : Pixel, p.byte0.extractLsb' 5 3 = 0b111#3 → repack (unpack p) = p) ∧
  (∀ p : Pixel, p.byte0.extractLsb' 5 3 ≠ 0b111#3 →
    (repack (unpack p)).byte0 ≠ p.byte0 ∧ (repack (unpack p)).byte0.extractLsb' 5 3 = 0b111#3 ∧
    (repack (unpack p)).byte0.extractLsb' 0 5 = p.byte0.extractLsb' 0 5 ∧
    (repack (unpack p)).byte1 = p.byte1 ∧ (repack (unpack p)).byte2 = p.byte2 ∧ (repack (unpack p)).byte3 = p.byte3) ∧
  (∀ (s : State) (p : Pixel), s.Inv → s.life = .ready → p ∈ s.pix → p.byte0.extractLsb' 5 3 = 0b111#3) ∧
  (∀ x : Byte, clamp5 ((clamp5 x).setWidth 8) = clamp5 x)

/-! ## Framer and the pixel byte space -/

/-- R191, R199: the footer length is `(n + 15) div 16` without wrap, which is `n / 16` rounded up; the spec's table of values. -/
def Obligations.FooterLengthDoesNotWrap : Prop :=
  (∀ n : Index, (footerLenOf n).toNat = (n.toNat + 15) / 16 ∧ ((footerLenOf n).toNat : ℤ) = ⌈(n.toNat : ℚ) / 16⌉) ∧
  ∀ row ∈ [(1, 1), (2, 1), (3, 1), (15, 1), (16, 1), (17, 2), (31, 2), (32, 2), (33, 3), (144, 9), (255, 16), (256, 16), (257, 17),
      (300, 19), (65520, 4095), (65521, 4096), (65535, 4096)],
    (footerLenOf (indexOf row.1)).toNat = row.2

/-- R195, R196, R197: the frame of a Ready block, byte by byte, its length, and its first, fifth and last bytes. -/
def Obligations.FrameFollowsItsLayout : Prop :=
  (∀ (s : State) (n : Index), s.Inv → s.life = .ready → s.numLeds = some n →
    (frameOf s.hdr.toList (pixBytesOf s.pix) s.ftr).length = 4 + 4 * n.toNat + (n.toNat + 15) / 16 ∧
    (∀ k, (frameOf s.hdr.toList (pixBytesOf s.pix) s.ftr)[k]? = frameByteOf n.toNat s.pix k) ∧
    (frameOf s.hdr.toList (pixBytesOf s.pix) s.ftr).head? = some 0x00#8 ∧
    (frameOf s.hdr.toList (pixBytesOf s.pix) s.ftr).getLast? = some 0xFF#8 ∧
    ∃ v : Byte, (frameOf s.hdr.toList (pixBytesOf s.pix) s.ftr)[4]? = some v ∧ 0xE0 ≤ v.toNat) ∧
  ∀ row ∈ [(1, 9), (3, 17), (16, 69), (17, 74), (300, 1223), (65535, 266240)], frameLenOf row.1 = row.2

/-- R52: byte address `a` holds `PIX[a div 4][a mod 4]`; MemRead reads and MemWrite replaces bytes of PIXBYTES; a record is
the four bytes at `4*i`. -/
def Obligations.PixelByteSpaceIsTheStore : Prop :=
  ∀ records : List Pixel,
    (pixBytesOf records).length = 4 * records.length ∧
    (∀ a, (pixBytesOf records)[a]? = records[a / 4]?.map fun p => p.byteAt (a % 4)) ∧
    (∀ a n, a + n ≤ 4 * records.length → memRead records a n = some (((pixBytesOf records).drop a).take n)) ∧
    (∀ a v, a + v.length ≤ 4 * records.length →
      pixBytesOf (memWrite records a v) = (pixBytesOf records).take a ++ v ++ (pixBytesOf records).drop (a + v.length)) ∧
    (∀ i p, records[i]? = some p → memRead records (4 * i) 4 = some p.bytes) ∧
    (∀ i p, i < records.length → memWrite records (4 * i) p.bytes = records.set i p)

/-! ## Per-pixel commands -/

/-- R131: GET's encoding; in range it answers the pixel's colour and five-bit brightness, out of range zero data; the state is
otherwise unchanged. -/
def Obligations.GetReadsOnePixel : Prop :=
  (∀ w : Word, opField w = 0x4 → rsvField w = 0 → decode w = .instr (.get (idxField w))) ∧
  ∀ (s : State) (n idx : Index), s.Inv → s.life = .ready → s.numLeds = some n →
    (idx.toNat < n.toNat → ∃ p, s.pix[idx.toNat]? = some p ∧
      exec (.get idx) s = .next { s with
        responses := s.responses ++ [(p.byte3.setWidth 64 <<< 24) ||| (p.byte2.setWidth 64 <<< 16) |||
          (p.byte1.setWidth 64 <<< 8) ||| (p.byte0 &&& 0x1F#8).setWidth 64] }) ∧
    (n.toNat ≤ idx.toNat → exec (.get idx) s = .next { s with responses := s.responses ++ [0#64] })

/-- R132: SETCB's encoding; in range it stores brightness clamped and tagged, then blue, green, red; out of range nothing;
either way OK and nothing else changes. -/
def Obligations.SetcbStoresOneRecord : Prop :=
  (∀ w : Word, opField w = 0x5 → rsvField w = 0 →
    decode w = .instr (.setcb (idxField w) (rField w) (gField w) (bField w) (brField w))) ∧
  ∀ (s : State) (n idx : Index) (r g b br : Byte), s.life = .ready → s.numLeds = some n →
    exec (.setcb idx r g b br) s = .next { s with
      pix := if idx.toNat < n.toNat then
          s.pix.set idx.toNat { byte0 := 0xE0#8 ||| BitVec.ofNat 8 (min br.toNat 31), byte1 := b, byte2 := g, byte3 := r }
        else s.pix
      responses := s.responses ++ [0#64] }

/-- R133: SETC's encoding; in range it stores the colour and keeps the brightness byte; out of range nothing; either way OK
and nothing else changes. -/
def Obligations.SetcKeepsBrightness : Prop :=
  (∀ w : Word, opField w = 0x6 → rsvField w = 0 → decode w = .instr (.setc (idxField w) (rField w) (gField w) (bField w))) ∧
  ∀ (s : State) (n idx : Index) (r g b : Byte), s.Inv → s.life = .ready → s.numLeds = some n →
    exec (.setc idx r g b) s = .next { s with
      pix := if idx.toNat < n.toNat then s.pix.modify idx.toNat fun p => { p with byte1 := b, byte2 := g, byte3 := r } else s.pix
      responses := s.responses ++ [0#64] }

/-- R134: SETB's encoding; in range it stores the clamped and tagged brightness and keeps the colour; out of range nothing;
either way OK and nothing else changes. -/
def Obligations.SetbKeepsColour : Prop :=
  (∀ w : Word, opField w = 0x7 → rsvField w = 0 → decode w = .instr (.setb (idxField w) (brField w))) ∧
  ∀ (s : State) (n idx : Index) (br : Byte), s.Inv → s.life = .ready → s.numLeds = some n →
    exec (.setb idx br) s = .next { s with
      pix := if idx.toNat < n.toNat then
          s.pix.modify idx.toNat fun p => { p with byte0 := 0xE0#8 ||| BitVec.ofNat 8 (min br.toNat 31) }
        else s.pix
      responses := s.responses ++ [0#64] }

/-- R136: what the source states as testable properties of the per-pixel commands, as runs of two commands. -/
def Obligations.PerPixelLaws : Prop :=
  ∀ (s : State) (n idx : Index), s.Inv → s.life = .ready → s.numLeds = some n →
    (idx.toNat < n.toNat →
      (∀ x : Byte, ∃ t u w, exec (.setb idx x) s = .next t ∧ Answers (.get idx) t w u ∧
        (w.extractLsb' 0 8).toNat = min x.toNat 31) ∧
      (∀ r g b : Byte, ∃ t u v w₀ w₁, Answers (.get idx) s w₀ v ∧ exec (.setc idx r g b) s = .next t ∧
        Answers (.get idx) t w₁ u ∧ w₁.extractLsb' 0 8 = w₀.extractLsb' 0 8) ∧
      (∀ x : Byte, ∃ t u v w₀ w₁, Answers (.get idx) s w₀ v ∧ exec (.setb idx x) s = .next t ∧
        Answers (.get idx) t w₁ u ∧ w₁.extractLsb' 8 24 = w₀.extractLsb' 8 24) ∧
      (∀ r g b x : Byte, ∃ t u w, exec (.setcb idx r g b x) s = .next t ∧ Answers (.get idx) t w u ∧
        w.extractLsb' 24 8 = r ∧ w.extractLsb' 16 8 = g ∧ w.extractLsb' 8 8 = b ∧ (w.extractLsb' 0 8).toNat = min x.toNat 31)) ∧
    (∀ r g b x : Byte, ∀ i ∈ [Instr.get idx, .setcb idx r g b x, .setc idx r g b, .setb idx x],
      (∀ t, exec i s = .next t → ∀ j, j ≠ idx.toNat → t.pix[j]? = s.pix[j]?) ∧
      (n.toNat ≤ idx.toNat → exec i s = .next { s with responses := s.responses ++ [0#64] }))

/-- The frame of the per-pixel commands (R36, R58, R136): only the pixel store, the responses and the mark of a misused run may
change; every byte outside the four at the effective address is unchanged; SETB changes only the brightness byte, SETC
only the three colour bytes, GET no byte. -/
def Obligations.PerPixelFrame : Prop :=
  ∀ (s t : State) (idx : Index) (r g b br : Byte), s.Inv →
    (∀ i ∈ [Instr.get idx, .setcb idx r g b br, .setc idx r g b, .setb idx br], exec i s = .next t →
      t = { s with pix := t.pix, responses := t.responses, faulted := t.faulted } ∧
      (s.life = .ready → t.faulted = s.faulted) ∧
      ∀ a, a < effectiveAddr idx ∨ effectiveAddr idx + 4 ≤ a → readByte t.pix a = readByte s.pix a) ∧
    (exec (.get idx) s = .next t → ∀ a, readByte t.pix a = readByte s.pix a) ∧
    (exec (.setc idx r g b) s = .next t → readByte t.pix (effectiveAddr idx) = readByte s.pix (effectiveAddr idx)) ∧
    (exec (.setb idx br) s = .next t → ∀ a, effectiveAddr idx < a → readByte t.pix a = readByte s.pix a)

/-! ## Whole-strip commands -/

/-- R151: CLEAR's encoding; every record becomes the "off" record, and nothing else changes. -/
def Obligations.ClearSwitchesEveryPixelOff : Prop :=
  (∀ w : Word, opField w = 0x8 → rsvField w = 0 → decode w = .instr .clear) ∧
  ∀ (s : State) (n : Index), s.life = .ready → s.numLeds = some n →
    exec .clear s = .next { s with
      pix := List.replicate n.toNat { byte0 := 0xFF#8, byte1 := 0x00#8, byte2 := 0x00#8, byte3 := 0x00#8 }
      responses := s.responses ++ [0#64] }

/-- R152: FILLCB's encoding; every record becomes the packed operands, and nothing else changes. -/
def Obligations.FillcbStoresOneRecordEverywhere : Prop :=
  (∀ w : Word, opField w = 0x9 → rsvField w = 0 → decode w = .instr (.fillcb (rField w) (gField w) (bField w) (brField w))) ∧
  ∀ (s : State) (n : Index) (r g b br : Byte), s.life = .ready → s.numLeds = some n →
    exec (.fillcb r g b br) s = .next { s with
      pix := List.replicate n.toNat
        { byte0 := 0xE0#8 ||| BitVec.ofNat 8 (min br.toNat 31), byte1 := b, byte2 := g, byte3 := r }
      responses := s.responses ++ [0#64] }

/-- R153: FILLC's encoding; every record gets the colour and keeps its own brightness byte, and nothing else changes. -/
def Obligations.FillcKeepsEachBrightness : Prop :=
  (∀ w : Word, opField w = 0xA → rsvField w = 0 → decode w = .instr (.fillc (rField w) (gField w) (bField w))) ∧
  ∀ (s : State) (r g b : Byte), s.Inv → s.life = .ready →
    exec (.fillc r g b) s = .next { s with
      pix := s.pix.map fun p => { p with byte1 := b, byte2 := g, byte3 := r }
      responses := s.responses ++ [0#64] }

/-- R154: FILLB's encoding; every record gets the clamped and tagged brightness and keeps its own colour, and nothing else changes. -/
def Obligations.FillbKeepsEachColour : Prop :=
  (∀ w : Word, opField w = 0xB → rsvField w = 0 → decode w = .instr (.fillb (brField w))) ∧
  ∀ (s : State) (br : Byte), s.Inv → s.life = .ready →
    exec (.fillb br) s = .next { s with
      pix := s.pix.map fun p => { p with byte0 := 0xE0#8 ||| BitVec.ofNat 8 (min br.toNat 31) }
      responses := s.responses ++ [0#64] }

/-- R155: a whole-strip command is its lanes in any order: running the lanes `PIX[i] <- f(PIX[i])` one after the other, in any order
of the indices, gives what the command leaves; either every lane is written or the store is unchanged. -/
def Obligations.LanesMayRunInAnyOrder : Prop :=
  ∀ (s : State) (r g b br : Byte), s.Inv →
    ∀ c ∈ [(Instr.clear, fun _ : Pixel => off), (.fillcb r g b br, fun _ => pack r g b br),
        (.fillc r g b, recolour r g b), (.fillb br, rebright br)],
      ∃ t, exec c.1 s = .next t ∧
        (s.life ≠ .ready → t.pix = s.pix) ∧
        (s.life = .ready → ∀ order : List Nat, order.Perm (List.range s.pix.length) →
          t.pix = order.foldl (fun records i => lane c.2 i records) s.pix)

/-! ## Shift and rotate commands -/

/-- R171: PUSHF's encoding and its parallel assignment; nothing but the store and the responses changes. -/
def Obligations.PushfShiftsTowardTheBack : Prop :=
  (∀ w : Word, opField w = 0xC → rsvField w = 0 → decode w = .instr (.pushf (rField w) (gField w) (bField w) (brField w))) ∧
  ∀ (s : State) (n : Index) (r g b br : Byte), s.Inv → s.life = .ready → s.numLeds = some n →
    ∃ records, exec (.pushf r g b br) s = .next { s with pix := records, responses := s.responses ++ [0#64] } ∧
      records.length = n.toNat ∧
      records[0]? = some { byte0 := 0xE0#8 ||| BitVec.ofNat 8 (min br.toNat 31), byte1 := b, byte2 := g, byte3 := r } ∧
      ∀ i, 1 ≤ i → i < n.toNat → records[i]? = s.pix[i - 1]?

/-- R172: PUSHB's encoding and its parallel assignment; nothing but the store and the responses changes. -/
def Obligations.PushbShiftsTowardTheFront : Prop :=
  (∀ w : Word, opField w = 0xD → rsvField w = 0 → decode w = .instr (.pushb (rField w) (gField w) (bField w) (brField w))) ∧
  ∀ (s : State) (n : Index) (r g b br : Byte), s.Inv → s.life = .ready → s.numLeds = some n →
    ∃ records, exec (.pushb r g b br) s = .next { s with pix := records, responses := s.responses ++ [0#64] } ∧
      records.length = n.toNat ∧
      records[n.toNat - 1]? = some { byte0 := 0xE0#8 ||| BitVec.ofNat 8 (min br.toNat 31), byte1 := b, byte2 := g, byte3 := r } ∧
      ∀ i, i + 1 < n.toNat → records[i]? = s.pix[i + 1]?

/-- R173: ROTL's encoding and its parallel assignment, `PIX[i] = old[(i+1) mod N]`; nothing but the store and the responses changes. -/
def Obligations.RotlMovesTheFrontToTheBack : Prop :=
  (∀ w : Word, opField w = 0xE → rsvField w = 0 → decode w = .instr .rotl) ∧
  ∀ (s : State) (n : Index), s.Inv → s.life = .ready → s.numLeds = some n →
    ∃ records, exec .rotl s = .next { s with pix := records, responses := s.responses ++ [0#64] } ∧
      records.length = n.toNat ∧ ∀ i, i < n.toNat → records[i]? = s.pix[(i + 1) % n.toNat]?

/-- R174: ROTR's encoding and its parallel assignment, `PIX[i] = old[(i+N-1) mod N]`; nothing but the store and the responses changes. -/
def Obligations.RotrMovesTheBackToTheFront : Prop :=
  (∀ w : Word, opField w = 0xF → rsvField w = 0 → decode w = .instr .rotr) ∧
  ∀ (s : State) (n : Index), s.Inv → s.life = .ready → s.numLeds = some n →
    ∃ records, exec .rotr s = .next { s with pix := records, responses := s.responses ++ [0#64] } ∧
      records.length = n.toNat ∧ ∀ i, i < n.toNat → records[i]? = s.pix[(i + n.toNat - 1) % n.toNat]?

/-- R171, R172: the pseudocode's loops, run index after index in the order the rules give, compute the parallel assignments the
meanings use. -/
def Obligations.ShiftLoopsRefineTheirMeaning : Prop :=
  ∀ (records : List Pixel) (p : Pixel),
    loopPushFront records.length p records = shiftBack p records ∧
    loopPushBack records.length p records = shiftFront p records

/-- R175 (a), (b), (c), (e): repeated rotations; they keep the invariant and change only the store and the responses. -/
def Obligations.RotationLaws : Prop :=
  ∀ (s : State) (n : Index), s.Inv → s.life = .ready → s.numLeds = some n →
    (∀ k, ∃ t, execAll (List.replicate k .rotl) s = .next t ∧ t.pix.length = n.toNat ∧
      t = { s with pix := t.pix, responses := t.responses } ∧ t.Inv ∧
      ∀ i, i < n.toNat → t.pix[i]? = s.pix[(i + k) % n.toNat]?) ∧
    (∀ k, ∃ t, execAll (List.replicate k .rotr) s = .next t ∧ t.pix.length = n.toNat ∧
      t = { s with pix := t.pix, responses := t.responses } ∧ t.Inv ∧
      ∀ i, i < n.toNat → t.pix[i]? = s.pix[(i + n.toNat - k % n.toNat) % n.toNat]?) ∧
    (∀ c ∈ [List.replicate n.toNat Instr.rotl, List.replicate n.toNat .rotr, [.rotl, .rotr], [.rotr, .rotl]],
      ∃ t, execAll c s = .next t ∧ SameBlock s t)

/-- R175 (d), (e): N pushes replace the whole strip, in the order the rule gives; they keep the invariant and change only the store
and the responses. -/
def Obligations.PushesReplaceTheStrip : Prop :=
  ∀ (s : State) (n : Index) (cs : List Colour), s.Inv → s.life = .ready → s.numLeds = some n → cs.length = n.toNat →
    (∃ t, execAll (cs.map fun c => .pushf c.r c.g c.b c.brightness) s = .next t ∧
      t = { s with pix := t.pix, responses := t.responses } ∧ t.Inv ∧
      ∀ i, i < n.toNat → t.pix[i]? = cs[n.toNat - 1 - i]?.map repack) ∧
    (∃ t, execAll (cs.map fun c => .pushb c.r c.g c.b c.brightness) s = .next t ∧
      t = { s with pix := t.pix, responses := t.responses } ∧ t.Inv ∧
      ∀ i, i < n.toNat → t.pix[i]? = cs[i]?.map repack)

/-- R89: the eight delegations by which the source defines commands through others; the operands of the second command are read
from the response of the first. -/
def Obligations.DelegationLaws : Prop :=
  ∀ (s : State) (n : Index) (r g b br : Byte), s.Inv → s.life = .ready → s.numLeds = some n →
    (∀ idx : Index, idx.toNat < n.toNat → ∃ t u v w, exec (.setc idx r g b) s = .next t ∧ Answers (.get idx) s w u ∧
      exec (.setcb idx r g b (w.extractLsb' 0 8)) u = .next v ∧ SameBlock t v) ∧
    (∀ idx : Index, idx.toNat < n.toNat → ∃ t u v w, exec (.setb idx br) s = .next t ∧ Answers (.get idx) s w u ∧
      exec (.setcb idx (w.extractLsb' 24 8) (w.extractLsb' 16 8) (w.extractLsb' 8 8) br) u = .next v ∧ SameBlock t v) ∧
    (∃ t v, exec .clear s = .next t ∧ exec (.fillcb 0 0 0 31) s = .next v ∧ SameBlock t v) ∧
    (∃ t v, exec (.fillcb r g b br) s = .next t ∧
      execAll ((List.range n.toNat).map fun k => .setcb (indexOf k) r g b br) s = .next v ∧ SameBlock t v) ∧
    (∃ t v, exec (.fillc r g b) s = .next t ∧
      execAll ((List.range n.toNat).map fun k => .setc (indexOf k) r g b) s = .next v ∧ SameBlock t v) ∧
    (∃ t v, exec (.fillb br) s = .next t ∧
      execAll ((List.range n.toNat).map fun k => .setb (indexOf k) br) s = .next v ∧ SameBlock t v) ∧
    (∃ t u v w, exec .rotl s = .next t ∧ Answers (.get 0) s w u ∧
      exec (.pushb (w.extractLsb' 24 8) (w.extractLsb' 16 8) (w.extractLsb' 8 8) (w.extractLsb' 0 8)) u = .next v ∧
      SameBlock t v) ∧
    (∃ t u v w, exec .rotr s = .next t ∧ Answers (.get (n - 1)) s w u ∧
      exec (.pushf (w.extractLsb' 24 8) (w.extractLsb' 16 8) (w.extractLsb' 8 8) (w.extractLsb' 0 8)) u = .next v ∧
      SameBlock t v)

/-! ## Lifecycle and show -/

/-- R211, R212: CREATE's encoding; in Uninitialized, by the answer of `T.init()`: an error is reported with its code and no
teardown; `n = 0` and `n > MAXLEDS` are rolled back by one teardown; otherwise the strip is sized and switched off and
LIFE is Ready. In the other lifecycle states it is refused. -/
def Obligations.CreateFollowsItsRule : Prop :=
  (∀ w : Word, opField w = 0x1 → rsvField w = 0 → decode w = .instr (.create (idxField w))) ∧
  (∀ (s : State) (n : Index) (e : Byte), s.life = .uninitialized → s.initDraws.head = .initError e →
    exec (.create n) s = .next { s with
      initDraws := s.initDraws.tail
      requests := s.requests ++ [.init (.initError e)]
      responses := s.responses ++ [0x1000020000000000#64 ||| (e.setWidth 64 <<< 32)] }) ∧
  (∀ (s : State) (n : Index), s.life = .uninitialized → s.initDraws.head = .initOk → n.toNat = 0 →
    exec (.create n) s = .next { s with
      initDraws := s.initDraws.tail
      requests := s.requests ++ [.init .initOk, .teardown]
      responses := s.responses ++ [0x1000010000000000#64] }) ∧
  (∀ (s : State) (n : Index), s.life = .uninitialized → s.initDraws.head = .initOk → n.toNat ≠ 0 →
    s.cfg.maxLeds.toNat < n.toNat →
    exec (.create n) s = .next { s with
      initDraws := s.initDraws.tail
      requests := s.requests ++ [.init .initOk, .teardown]
      responses := s.responses ++ [0x1000030000000000#64] }) ∧
  (∀ (s : State) (n : Index), s.life = .uninitialized → s.initDraws.head = .initOk → 1 ≤ n.toNat →
    n.toNat ≤ s.cfg.maxLeds.toNat →
    exec (.create n) s = .next { s with
      life := .ready
      numLeds := some n
      footerLen := some (BitVec.ofNat 13 ((n.toNat + 15) / 16))
      ftr := List.replicate ((n.toNat + 15) / 16) 0xFF#8
      pix := List.replicate n.toNat { byte0 := 0xFF#8, byte1 := 0x00#8, byte2 := 0x00#8, byte3 := 0x00#8 }
      initDraws := s.initDraws.tail
      requests := s.requests ++ [.init .initOk]
      responses := s.responses ++ [0#64] }) ∧
  (∀ (s : State) (n : Index), s.life ≠ .uninitialized → LifecycleRefused (.create n) s)

/-- R213: after a successful CREATE the invariant holds, every GET in range gives (0, 0, 0, 31), and a SHOW issued next hands over the
header, `n` "off" records and the footer. -/
def Obligations.FreshStripIsOff : Prop :=
  ∀ (s : State) (n : Index), s.Inv → s.life = .uninitialized → s.initDraws.head = .initOk → 1 ≤ n.toNat →
    n.toNat ≤ s.cfg.maxLeds.toNat →
    ∃ t, exec (.create n) s = .next t ∧ t.Inv ∧
      (∀ i : Index, i.toNat < n.toNat → ∃ u, Answers (.get i) t 0x000000000000001F#64 u) ∧
      ∃ u, exec .showStrip t = .next u ∧
        u.requests = t.requests ++ [.write [0x00#8, 0x00#8, 0x00#8, 0x00#8]
          (List.replicate n.toNat [0xFF#8, 0x00#8, 0x00#8, 0x00#8]).flatten
          (List.replicate ((n.toNat + 15) / 16) 0xFF#8) t.writeDraws.head]

/-- R214: SHOW's encoding; one request with the header, the pixel bytes and the footer as they stand; the response follows the
transport's answer, verbatim; nothing else changes whatever the answer. Where LIFE is not Ready it is refused. -/
def Obligations.ShowHandsOverTheFrame : Prop :=
  (∀ w : Word, opField w = 0x3 → rsvField w = 0 → decode w = .instr .showStrip) ∧
  (∀ s : State, s.life ≠ .ready → LifecycleRefused .showStrip s) ∧
  ∀ (s : State) (n : Index), s.Inv → s.life = .ready → s.numLeds = some n →
    (s.writeDraws.head = .writeOk →
      exec .showStrip s = .next { s with
        writeDraws := s.writeDraws.tail
        requests := s.requests ++ [.write [0x00#8, 0x00#8, 0x00#8, 0x00#8] (pixBytesOf s.pix)
          (List.replicate ((n.toNat + 15) / 16) 0xFF#8) .writeOk]
        responses := s.responses ++ [0#64] }) ∧
    (∀ e : Byte, s.writeDraws.head = .ioError e →
      exec .showStrip s = .next { s with
        writeDraws := s.writeDraws.tail
        requests := s.requests ++ [.write [0x00#8, 0x00#8, 0x00#8, 0x00#8] (pixBytesOf s.pix)
          (List.replicate ((n.toNat + 15) / 16) 0xFF#8) (.ioError e)]
        responses := s.responses ++ [0x2000000000000000#64 ||| (e.setWidth 64 <<< 32)] })

/-- R215: two consecutive SHOWs make two identical requests, whatever the transport answered to the first. -/
def Obligations.ShowRemembersNothing : Prop :=
  ∀ s t u : State, s.Inv → s.life = .ready → exec .showStrip s = .next t → exec .showStrip t = .next u →
    SameBlock s t ∧ SameBlock t u ∧ ∃ h p f a₁ a₂, t.requests = s.requests ++ [.write h p f a₁] ∧
      u.requests = t.requests ++ [.write h p f a₂]

/-- R216: DESTROY's encoding; the transport is torn down by one request with no write, the sized items become novalue, LIFE is
Destroyed; HDR and everything else is unchanged. Where LIFE is not Ready it is refused. -/
def Obligations.DestroyReleasesEverything : Prop :=
  (∀ w : Word, opField w = 0x2 → rsvField w = 0 → decode w = .instr .destroy) ∧
  (∀ s : State, s.life ≠ .ready → LifecycleRefused .destroy s) ∧
  ∀ s : State, s.life = .ready →
    exec .destroy s = .next { s with
      life := .destroyed
      numLeds := none
      footerLen := none
      pix := []
      ftr := []
      requests := s.requests ++ [.teardown]
      responses := s.responses ++ [0#64] }

/-- R218: the table of validity; a command that is not valid changes none of the six items, makes no request and answers
LIFECYCLE_ERROR; a valid command is never answered so. That an invalid command marks the run and a valid one leaves the
mark is R243 with 93 U1 to U3, U11, and the mark is the model's own field (log 5). -/
def Obligations.ValidityFollowsTheTable : Prop :=
  (∀ i : Instr, validIn i .uninitialized = true ↔ ∃ n, i = .create n) ∧
  (∀ i : Instr, validIn i .ready = true ↔ ∀ n, i ≠ .create n) ∧
  (∀ i : Instr, validIn i .destroyed = false) ∧
  (∀ (i : Instr) (s : State), validIn i s.life = false →
    exec i s = .next { s with faulted := true, responses := s.responses ++ [0x3000000000000000#64] }) ∧
  (∀ (i : Instr) (s t : State), validIn i s.life = true → exec i s = .next t →
    t.responses ≠ s.responses ++ [0x3000000000000000#64] ∧ t.faulted = s.faulted)

/-- R210: LIFE moves only by a successful CREATE, from Uninitialized to Ready, and by DESTROY, from Ready to Destroyed. -/
def Obligations.LifeMovesOnlyByCreateAndDestroy : Prop :=
  ∀ s t : State, step s = .next t →
    t.life = s.life ∨
    (s.life = .uninitialized ∧ t.life = .ready ∧ t.responses = s.responses ++ [0#64] ∧
      ∃ w rest n, s.cmds = w :: rest ∧ decode w = .instr (.create n)) ∨
    (s.life = .ready ∧ t.life = .destroyed ∧ t.responses = s.responses ++ [0#64] ∧
      ∃ w rest, s.cmds = w :: rest ∧ decode w = .instr .destroy)

/-- R35: Destroyed is terminal: no run leaves it, changes the block or makes a transport request from it. -/
def Obligations.DestroyedIsTerminal : Prop :=
  ∀ s t : State, s.life = .destroyed → Reach s t → t.life = .destroyed ∧ SameBlock s t ∧ t.requests = s.requests

/-- R250: errors are precise: a step answered with a status other than OK leaves the six items unchanged. -/
def Obligations.ErrorsChangeNothing : Prop :=
  ∀ (s t : State) (w : Word), step s = .next t → t.responses = s.responses ++ [w] → statusField w ≠ 0 →
    SameBlock s t ∧ t.cfg = s.cfg

/-! ## Whole-machine rules -/

/-- R23: every step keeps the invariant. -/
def Obligations.StepKeepsTheInvariant : Prop :=
  ∀ s t : State, s.Inv → step s = .next t → t.Inv

/-- R281: after reset LIFE is Uninitialized, HDR four zero bytes, everything else novalue, and no request has been made; the invariants
hold, whatever the parameter and the inputs; `State.reset` is such a state, and with no command presented the block waits. -/
def Obligations.ResetMeetsTheInvariant : Prop :=
  (State.reset.life = .uninitialized ∧ State.reset.hdr.toList = [0x00#8, 0x00#8, 0x00#8, 0x00#8] ∧ State.reset.Unsized ∧
    State.reset.requests = [] ∧ State.reset.Inv ∧ State.reset.TransportInv ∧ step State.reset = .next State.reset) ∧
  ∀ (cfg : Config) (cmds : List Word) (di : Draws InitAnswer) (dw : Draws WriteAnswer),
    (State.boot cfg cmds di dw).life = .uninitialized ∧
    (State.boot cfg cmds di dw).hdr.toList = [0x00#8, 0x00#8, 0x00#8, 0x00#8] ∧
    (State.boot cfg cmds di dw).Unsized ∧ (State.boot cfg cmds di dw).requests = [] ∧
    (State.boot cfg cmds di dw).Inv ∧ (State.boot cfg cmds di dw).TransportInv

/-- No step from a state that meets the invariant faults or is refused: every command, in every lifecycle state, with every answer
of the transport, leaves a next state (R21: no rule reads a novalue item; log 19). -/
def Obligations.NoStepFaults : Prop :=
  ∀ s : State, s.Inv → ∃ t, step s = .next t

/-- R266: every step keeps the agreement of LIFE with the recorded transport requests. -/
def Obligations.StepKeepsTheTransportInvariant : Prop :=
  ∀ s t : State, s.TransportInv → step s = .next t → t.TransportInv

/-- R266: the requests of every run from reset have the shape `( init[fail] | init[ok] teardown )*` then optionally
`init[ok] write* teardown?`; in a run that hangs, one unanswered request follows such a sequence. The clause on a hanging
run, and the field `waiting` that says so, are the model's (R293; log 4). -/
def Obligations.RequestsOfARunHaveTheirShape : Prop :=
  ∀ t : State, Reachable t →
    (t.waiting = false → RequestShape t.requests) ∧
    (t.waiting = true → ∃ before q, t.requests = before ++ [q] ∧ q.unanswered = true ∧ RequestShape before)

/-- R70: a run with no SHOW makes no write request, whatever else it does. -/
def Obligations.NoWriteWithoutShow : Prop :=
  ∀ s t : State, Reach s t → (∀ w ∈ s.cmds, decode w ≠ .instr .showStrip) →
    ∃ new, t.requests = s.requests ++ new ∧ ∀ q ∈ new, q.isWrite = false

/-- R36: only CREATE, SHOW and DESTROY touch the transport; SHOW makes only one write, CREATE and DESTROY none. -/
def Obligations.OnlyThreeCommandsTouchTheTransport : Prop :=
  ∀ (i : Instr) (s t : State), exec i s = .next t →
    (i.mnemonic ≠ .CREATE → i.mnemonic ≠ .SHOW → i.mnemonic ≠ .DESTROY →
      t.requests = s.requests ∧ t.initDraws = s.initDraws ∧ t.writeDraws = s.writeDraws ∧ t.waiting = s.waiting) ∧
    (i.mnemonic = .SHOW → t.requests = s.requests ∨ ∃ h p f a, t.requests = s.requests ++ [.write h p f a]) ∧
    (i.mnemonic = .DESTROY → t.requests = s.requests ∨ t.requests = s.requests ++ [.teardown]) ∧
    (∀ n, i = .create n → t.requests = s.requests ∨ (∃ a, t.requests = s.requests ++ [.init a]) ∨
      t.requests = s.requests ++ [.init .initOk, .teardown])

/-- R293: a SHOW or a CREATE whose request is never answered gives no response and changes none of the six items, and no run leaves the
state it hangs in. -/
def Obligations.UnansweredRequestHangsTheRun : Prop :=
  (∀ s : State, s.Inv → s.life = .ready → s.writeDraws.head = .silent →
    ∃ t, exec .showStrip s = .next t ∧ t.waiting = true ∧ t.responses = s.responses ∧ SameBlock s t ∧ ∀ u, Reach t u → u = t) ∧
  (∀ (s : State) (n : Index), s.life = .uninitialized → s.initDraws.head = .silent →
    ∃ t, exec (.create n) s = .next t ∧ t.waiting = true ∧ t.responses = s.responses ∧ SameBlock s t ∧ ∀ u, Reach t u → u = t)

/-- R243 with 93 U1 to U3, U11 (the mark is the model's own, log 5): a run is marked exactly when it meets a LIFECYCLE_ERROR, and
the mark is never cleared. -/
def Obligations.MisuseIsMarkedForEver : Prop :=
  ∀ s t : State, step s = .next t →
    (s.faulted = true → t.faulted = true) ∧
    (t.responses = s.responses ++ [0x3000000000000000#64] → t.faulted = true) ∧
    (s.faulted = false → t.faulted = true → t.responses = s.responses ++ [0x3000000000000000#64])

/-- R61: GET and SHOW change none of the six items, and the same setter or fill issued twice leaves the block of issuing it once. -/
def Obligations.ReadsAndRepeatedWritesAreIdempotent : Prop :=
  (∀ (s t : State) (idx : Index), exec (.get idx) s = .next t ∨ exec .showStrip s = .next t → SameBlock s t) ∧
  ∀ (s t u : State) (idx : Index) (r g b br : Byte),
    ∀ i ∈ [Instr.setcb idx r g b br, .setc idx r g b, .setb idx br, .clear, .fillcb r g b br, .fillc r g b, .fillb br],
      exec i s = .next t → exec i t = .next u → SameBlock t u

/-- R32: the block does not read the history of responses and requests: replacing it changes a command's outcome only in that history,
and the command appends to it the same entries. -/
def Obligations.HistoryIsNeverRead : Prop :=
  ∀ (i : Instr) (s t : State) (rs : List Word) (qs : List Request), exec i s = .next t →
    ∃ newR newQ, t.responses = s.responses ++ newR ∧ t.requests = s.requests ++ newQ ∧
      exec i { s with responses := rs, requests := qs } = .next { t with responses := rs ++ newR, requests := qs ++ newQ }

/-- R26, R27, R28, R29: while the block stays Ready its count, footer length and footer do not change; HDR and MAXLEDS never change. -/
def Obligations.SizeIsFixedWhileReady : Prop :=
  ∀ s t : State, step s = .next t →
    t.hdr = s.hdr ∧ t.cfg = s.cfg ∧
    (s.life = .ready → t.life = .ready → t.numLeds = s.numLeds ∧ t.footerLen = s.footerLen ∧ t.ftr = s.ftr ∧
      (s.Inv → t.pix.length = s.pix.length))

/-- R268: a step of one instance is that instance's own step and leaves every other instance unchanged, and steps of two
instances may be taken in either order. -/
def Obligations.InstancesShareNothing : Prop :=
  (∀ (sys sys' : System) (i : Nat), System.stepAt sys i = .next sys' →
    (∀ j, j ≠ i → sys'[j]? = sys[j]?) ∧ ∀ s, sys[i]? = some s → ∃ t, step s = .next t ∧ sys'[i]? = some t) ∧
  (∀ (sys a b : System) (i j : Nat), i ≠ j → System.stepAt sys i = .next a → System.stepAt a j = .next b →
    ∃ c, System.stepAt sys j = .next c ∧ System.stepAt c i = .next b)

/-- R88: the assembler gives a word exactly to the lines whose operands are of the right number and fit their fields; what it gives
decodes to the command whose line it is, and every command has a line. -/
def Obligations.AssemblerRefusesExactlyIllFormedLines : Prop :=
  (∀ l : AsmLine, (∃ w, assemble l = some w) ↔
    (l.operands.length = l.mnemonic.format.fields.length ∧
      ∀ p ∈ l.mnemonic.format.fields.zip l.operands, 0 ≤ p.2 ∧ p.2 ≤ if p.1 = .idx then 65535 else 255)) ∧
  (∀ (l : AsmLine) (w : Word), assemble l = some w → ∃ i, decode w = .instr i ∧ toLine i = l) ∧
  (∀ i : Instr, assemble (toLine i) = some (encode i))
end

