-- ==== Sys2Proof/Laws/Encoding.lean ====
section
/-! SUPPORT. The bits and the fields of a command word and of a response word: each field read back gives what was
put in. -/

-- One theorem after the other, not in parallel: a check then needs far less memory.
set_option Elab.async false

namespace Sys2Proof

section CommandWord
variable (op : BitVec 4) (idx : Index) (r g b br : Byte)

/-- Every bit of a command word comes from exactly one field, or is a zero of `rsv` (R80). -/
theorem commandWord_getLsbD (i : Nat) :
    (commandWord op idx r g b br).getLsbD i =
      if i < 8 then br.getLsbD i else if i < 16 then b.getLsbD (i - 8) else if i < 24 then g.getLsbD (i - 16)
      else if i < 32 then r.getLsbD (i - 24) else if i < 48 then idx.getLsbD (i - 32)
      else if i < 60 then false else op.getLsbD (i - 60) := by
  simp only [commandWord, BitVec.getLsbD_or, BitVec.getLsbD_shiftLeft, BitVec.getLsbD_setWidth]
  grind

@[simp] theorem opField_commandWord : opField (commandWord op idx r g b br) = op := by
  apply BitVec.eq_of_getLsbD_eq; intro i hi
  simp [opField, commandWord_getLsbD, hi]; grind

@[simp] theorem rsvField_commandWord : rsvField (commandWord op idx r g b br) = 0 := by
  apply BitVec.eq_of_getLsbD_eq; intro i hi
  simp [rsvField, commandWord_getLsbD, hi]; grind

@[simp] theorem idxField_commandWord : idxField (commandWord op idx r g b br) = idx := by
  apply BitVec.eq_of_getLsbD_eq; intro i hi
  simp [idxField, commandWord_getLsbD, hi]; grind

@[simp] theorem rField_commandWord : rField (commandWord op idx r g b br) = r := by
  apply BitVec.eq_of_getLsbD_eq; intro i hi
  simp [rField, commandWord_getLsbD, hi]; grind

@[simp] theorem gField_commandWord : gField (commandWord op idx r g b br) = g := by
  apply BitVec.eq_of_getLsbD_eq; intro i hi
  simp [gField, commandWord_getLsbD, hi]; grind

@[simp] theorem bField_commandWord : bField (commandWord op idx r g b br) = b := by
  apply BitVec.eq_of_getLsbD_eq; intro i hi
  simp [bField, commandWord_getLsbD, hi]; grind

@[simp] theorem brField_commandWord : brField (commandWord op idx r g b br) = br := by
  apply BitVec.eq_of_getLsbD_eq; intro i hi
  simp [brField, commandWord_getLsbD, hi]

end CommandWord

end Sys2Proof

namespace Sys2Proof.Machine

section ResponseWord
variable (status : Status) (sub : SubCause) (err : Byte) (data : BitVec 32)

/-- Every bit of a response word comes from exactly one field, or is a zero of RW[59:44] (R96). -/
theorem responseWord_getLsbD (i : Nat) :
    (responseWord status sub err data).getLsbD i =
      if i < 32 then data.getLsbD i else if i < 40 then err.getLsbD (i - 32)
      else if i < 44 then sub.code.getLsbD (i - 40) else if i < 60 then false else status.code.getLsbD (i - 60) := by
  simp only [responseWord, BitVec.getLsbD_or, BitVec.getLsbD_shiftLeft, BitVec.getLsbD_setWidth]
  grind

@[simp] theorem statusField_responseWord : statusField (responseWord status sub err data) = status.code := by
  apply BitVec.eq_of_getLsbD_eq; intro i hi
  simp [statusField, responseWord_getLsbD, hi]; grind

@[simp] theorem zeroField_responseWord : zeroField (responseWord status sub err data) = 0 := by
  apply BitVec.eq_of_getLsbD_eq; intro i hi
  simp [zeroField, responseWord_getLsbD, hi]; grind

@[simp] theorem subField_responseWord : subField (responseWord status sub err data) = sub.code := by
  apply BitVec.eq_of_getLsbD_eq; intro i hi
  simp [subField, responseWord_getLsbD, hi]; grind

@[simp] theorem errField_responseWord : errField (responseWord status sub err data) = err := by
  apply BitVec.eq_of_getLsbD_eq; intro i hi
  simp [errField, responseWord_getLsbD, hi]; grind

@[simp] theorem dataField_responseWord : dataField (responseWord status sub err data) = data := by
  apply BitVec.eq_of_getLsbD_eq; intro i hi
  simp [dataField, responseWord_getLsbD, hi]

/-- The OK response without data is the zero word (R96, R97). -/
@[simp] theorem responseWord_ok : responseWord .ok .none 0#8 0#32 = 0#64 := by decide

end ResponseWord

end Sys2Proof.Machine
end

