-- ==== Sys2Proof/Laws/State.lean ====
section
/-! SUPPORT. Every field after every elementary update of the state (Machine/Ops.lean), so that no later proof unfolds a
record update. -/

-- One theorem after the other, not in parallel: a check then needs far less memory.
set_option Elab.async false

namespace Sys2Proof.Machine

variable (s : State)

@[simp] theorem State.giveResponse_life (w : Word) : (s.giveResponse w).life = s.life := rfl
@[simp] theorem State.giveResponse_numLeds (w : Word) : (s.giveResponse w).numLeds = s.numLeds := rfl
@[simp] theorem State.giveResponse_footerLen (w : Word) : (s.giveResponse w).footerLen = s.footerLen := rfl
@[simp] theorem State.giveResponse_pix (w : Word) : (s.giveResponse w).pix = s.pix := rfl
@[simp] theorem State.giveResponse_hdr (w : Word) : (s.giveResponse w).hdr = s.hdr := rfl
@[simp] theorem State.giveResponse_ftr (w : Word) : (s.giveResponse w).ftr = s.ftr := rfl
@[simp] theorem State.giveResponse_cfg (w : Word) : (s.giveResponse w).cfg = s.cfg := rfl
@[simp] theorem State.giveResponse_cmds (w : Word) : (s.giveResponse w).cmds = s.cmds := rfl
@[simp] theorem State.giveResponse_initDraws (w : Word) : (s.giveResponse w).initDraws = s.initDraws := rfl
@[simp] theorem State.giveResponse_writeDraws (w : Word) : (s.giveResponse w).writeDraws = s.writeDraws := rfl
@[simp] theorem State.giveResponse_waiting (w : Word) : (s.giveResponse w).waiting = s.waiting := rfl
@[simp] theorem State.giveResponse_faulted (w : Word) : (s.giveResponse w).faulted = s.faulted := rfl
@[simp] theorem State.giveResponse_responses (w : Word) : (s.giveResponse w).responses = s.responses ++ [w] := rfl
@[simp] theorem State.giveResponse_requests (w : Word) : (s.giveResponse w).requests = s.requests := rfl

@[simp] theorem State.logRequest_life (q : Request) : (s.logRequest q).life = s.life := rfl
@[simp] theorem State.logRequest_numLeds (q : Request) : (s.logRequest q).numLeds = s.numLeds := rfl
@[simp] theorem State.logRequest_footerLen (q : Request) : (s.logRequest q).footerLen = s.footerLen := rfl
@[simp] theorem State.logRequest_pix (q : Request) : (s.logRequest q).pix = s.pix := rfl
@[simp] theorem State.logRequest_hdr (q : Request) : (s.logRequest q).hdr = s.hdr := rfl
@[simp] theorem State.logRequest_ftr (q : Request) : (s.logRequest q).ftr = s.ftr := rfl
@[simp] theorem State.logRequest_cfg (q : Request) : (s.logRequest q).cfg = s.cfg := rfl
@[simp] theorem State.logRequest_cmds (q : Request) : (s.logRequest q).cmds = s.cmds := rfl
@[simp] theorem State.logRequest_initDraws (q : Request) : (s.logRequest q).initDraws = s.initDraws := rfl
@[simp] theorem State.logRequest_writeDraws (q : Request) : (s.logRequest q).writeDraws = s.writeDraws := rfl
@[simp] theorem State.logRequest_waiting (q : Request) : (s.logRequest q).waiting = s.waiting := rfl
@[simp] theorem State.logRequest_faulted (q : Request) : (s.logRequest q).faulted = s.faulted := rfl
@[simp] theorem State.logRequest_responses (q : Request) : (s.logRequest q).responses = s.responses := rfl
@[simp] theorem State.logRequest_requests (q : Request) : (s.logRequest q).requests = s.requests ++ [q] := rfl

@[simp] theorem State.setPix_life (records : List Pixel) : (s.setPix records).life = s.life := rfl
@[simp] theorem State.setPix_numLeds (records : List Pixel) : (s.setPix records).numLeds = s.numLeds := rfl
@[simp] theorem State.setPix_footerLen (records : List Pixel) : (s.setPix records).footerLen = s.footerLen := rfl
@[simp] theorem State.setPix_pix (records : List Pixel) : (s.setPix records).pix = records := rfl
@[simp] theorem State.setPix_hdr (records : List Pixel) : (s.setPix records).hdr = s.hdr := rfl
@[simp] theorem State.setPix_ftr (records : List Pixel) : (s.setPix records).ftr = s.ftr := rfl
@[simp] theorem State.setPix_cfg (records : List Pixel) : (s.setPix records).cfg = s.cfg := rfl
@[simp] theorem State.setPix_cmds (records : List Pixel) : (s.setPix records).cmds = s.cmds := rfl
@[simp] theorem State.setPix_initDraws (records : List Pixel) : (s.setPix records).initDraws = s.initDraws := rfl
@[simp] theorem State.setPix_writeDraws (records : List Pixel) : (s.setPix records).writeDraws = s.writeDraws := rfl
@[simp] theorem State.setPix_waiting (records : List Pixel) : (s.setPix records).waiting = s.waiting := rfl
@[simp] theorem State.setPix_faulted (records : List Pixel) : (s.setPix records).faulted = s.faulted := rfl
@[simp] theorem State.setPix_responses (records : List Pixel) : (s.setPix records).responses = s.responses := rfl
@[simp] theorem State.setPix_requests (records : List Pixel) : (s.setPix records).requests = s.requests := rfl

@[simp] theorem State.takeCommand_life : (s.takeCommand).life = s.life := rfl
@[simp] theorem State.takeCommand_numLeds : (s.takeCommand).numLeds = s.numLeds := rfl
@[simp] theorem State.takeCommand_footerLen : (s.takeCommand).footerLen = s.footerLen := rfl
@[simp] theorem State.takeCommand_pix : (s.takeCommand).pix = s.pix := rfl
@[simp] theorem State.takeCommand_hdr : (s.takeCommand).hdr = s.hdr := rfl
@[simp] theorem State.takeCommand_ftr : (s.takeCommand).ftr = s.ftr := rfl
@[simp] theorem State.takeCommand_cfg : (s.takeCommand).cfg = s.cfg := rfl
@[simp] theorem State.takeCommand_cmds : (s.takeCommand).cmds = s.cmds.tail := rfl
@[simp] theorem State.takeCommand_initDraws : (s.takeCommand).initDraws = s.initDraws := rfl
@[simp] theorem State.takeCommand_writeDraws : (s.takeCommand).writeDraws = s.writeDraws := rfl
@[simp] theorem State.takeCommand_waiting : (s.takeCommand).waiting = s.waiting := rfl
@[simp] theorem State.takeCommand_faulted : (s.takeCommand).faulted = s.faulted := rfl
@[simp] theorem State.takeCommand_responses : (s.takeCommand).responses = s.responses := rfl
@[simp] theorem State.takeCommand_requests : (s.takeCommand).requests = s.requests := rfl

@[simp] theorem State.takeInitAnswer_life : (s.takeInitAnswer).life = s.life := rfl
@[simp] theorem State.takeInitAnswer_numLeds : (s.takeInitAnswer).numLeds = s.numLeds := rfl
@[simp] theorem State.takeInitAnswer_footerLen : (s.takeInitAnswer).footerLen = s.footerLen := rfl
@[simp] theorem State.takeInitAnswer_pix : (s.takeInitAnswer).pix = s.pix := rfl
@[simp] theorem State.takeInitAnswer_hdr : (s.takeInitAnswer).hdr = s.hdr := rfl
@[simp] theorem State.takeInitAnswer_ftr : (s.takeInitAnswer).ftr = s.ftr := rfl
@[simp] theorem State.takeInitAnswer_cfg : (s.takeInitAnswer).cfg = s.cfg := rfl
@[simp] theorem State.takeInitAnswer_cmds : (s.takeInitAnswer).cmds = s.cmds := rfl
@[simp] theorem State.takeInitAnswer_initDraws : (s.takeInitAnswer).initDraws = s.initDraws.tail := rfl
@[simp] theorem State.takeInitAnswer_writeDraws : (s.takeInitAnswer).writeDraws = s.writeDraws := rfl
@[simp] theorem State.takeInitAnswer_waiting : (s.takeInitAnswer).waiting = s.waiting := rfl
@[simp] theorem State.takeInitAnswer_faulted : (s.takeInitAnswer).faulted = s.faulted := rfl
@[simp] theorem State.takeInitAnswer_responses : (s.takeInitAnswer).responses = s.responses := rfl
@[simp] theorem State.takeInitAnswer_requests : (s.takeInitAnswer).requests = s.requests := rfl

@[simp] theorem State.takeWriteAnswer_life : (s.takeWriteAnswer).life = s.life := rfl
@[simp] theorem State.takeWriteAnswer_numLeds : (s.takeWriteAnswer).numLeds = s.numLeds := rfl
@[simp] theorem State.takeWriteAnswer_footerLen : (s.takeWriteAnswer).footerLen = s.footerLen := rfl
@[simp] theorem State.takeWriteAnswer_pix : (s.takeWriteAnswer).pix = s.pix := rfl
@[simp] theorem State.takeWriteAnswer_hdr : (s.takeWriteAnswer).hdr = s.hdr := rfl
@[simp] theorem State.takeWriteAnswer_ftr : (s.takeWriteAnswer).ftr = s.ftr := rfl
@[simp] theorem State.takeWriteAnswer_cfg : (s.takeWriteAnswer).cfg = s.cfg := rfl
@[simp] theorem State.takeWriteAnswer_cmds : (s.takeWriteAnswer).cmds = s.cmds := rfl
@[simp] theorem State.takeWriteAnswer_initDraws : (s.takeWriteAnswer).initDraws = s.initDraws := rfl
@[simp] theorem State.takeWriteAnswer_writeDraws : (s.takeWriteAnswer).writeDraws = s.writeDraws.tail := rfl
@[simp] theorem State.takeWriteAnswer_waiting : (s.takeWriteAnswer).waiting = s.waiting := rfl
@[simp] theorem State.takeWriteAnswer_faulted : (s.takeWriteAnswer).faulted = s.faulted := rfl
@[simp] theorem State.takeWriteAnswer_responses : (s.takeWriteAnswer).responses = s.responses := rfl
@[simp] theorem State.takeWriteAnswer_requests : (s.takeWriteAnswer).requests = s.requests := rfl

@[simp] theorem State.hang_life : (s.hang).life = s.life := rfl
@[simp] theorem State.hang_numLeds : (s.hang).numLeds = s.numLeds := rfl
@[simp] theorem State.hang_footerLen : (s.hang).footerLen = s.footerLen := rfl
@[simp] theorem State.hang_pix : (s.hang).pix = s.pix := rfl
@[simp] theorem State.hang_hdr : (s.hang).hdr = s.hdr := rfl
@[simp] theorem State.hang_ftr : (s.hang).ftr = s.ftr := rfl
@[simp] theorem State.hang_cfg : (s.hang).cfg = s.cfg := rfl
@[simp] theorem State.hang_cmds : (s.hang).cmds = s.cmds := rfl
@[simp] theorem State.hang_initDraws : (s.hang).initDraws = s.initDraws := rfl
@[simp] theorem State.hang_writeDraws : (s.hang).writeDraws = s.writeDraws := rfl
@[simp] theorem State.hang_waiting : (s.hang).waiting = true := rfl
@[simp] theorem State.hang_faulted : (s.hang).faulted = s.faulted := rfl
@[simp] theorem State.hang_responses : (s.hang).responses = s.responses := rfl
@[simp] theorem State.hang_requests : (s.hang).requests = s.requests := rfl

@[simp] theorem State.markFaulted_life : (s.markFaulted).life = s.life := rfl
@[simp] theorem State.markFaulted_numLeds : (s.markFaulted).numLeds = s.numLeds := rfl
@[simp] theorem State.markFaulted_footerLen : (s.markFaulted).footerLen = s.footerLen := rfl
@[simp] theorem State.markFaulted_pix : (s.markFaulted).pix = s.pix := rfl
@[simp] theorem State.markFaulted_hdr : (s.markFaulted).hdr = s.hdr := rfl
@[simp] theorem State.markFaulted_ftr : (s.markFaulted).ftr = s.ftr := rfl
@[simp] theorem State.markFaulted_cfg : (s.markFaulted).cfg = s.cfg := rfl
@[simp] theorem State.markFaulted_cmds : (s.markFaulted).cmds = s.cmds := rfl
@[simp] theorem State.markFaulted_initDraws : (s.markFaulted).initDraws = s.initDraws := rfl
@[simp] theorem State.markFaulted_writeDraws : (s.markFaulted).writeDraws = s.writeDraws := rfl
@[simp] theorem State.markFaulted_waiting : (s.markFaulted).waiting = s.waiting := rfl
@[simp] theorem State.markFaulted_faulted : (s.markFaulted).faulted = true := rfl
@[simp] theorem State.markFaulted_responses : (s.markFaulted).responses = s.responses := rfl
@[simp] theorem State.markFaulted_requests : (s.markFaulted).requests = s.requests := rfl

@[simp] theorem State.sizeStrip_life (n : Index) : (s.sizeStrip n).life = .ready := rfl
@[simp] theorem State.sizeStrip_numLeds (n : Index) : (s.sizeStrip n).numLeds = some n := rfl
@[simp] theorem State.sizeStrip_footerLen (n : Index) : (s.sizeStrip n).footerLen = some (footerLenOf n) := rfl
@[simp] theorem State.sizeStrip_pix (n : Index) : (s.sizeStrip n).pix = List.replicate n.toNat off := rfl
@[simp] theorem State.sizeStrip_hdr (n : Index) : (s.sizeStrip n).hdr = s.hdr := rfl
@[simp] theorem State.sizeStrip_ftr (n : Index) : (s.sizeStrip n).ftr = footerBytes (footerLenOf n) := rfl
@[simp] theorem State.sizeStrip_cfg (n : Index) : (s.sizeStrip n).cfg = s.cfg := rfl
@[simp] theorem State.sizeStrip_cmds (n : Index) : (s.sizeStrip n).cmds = s.cmds := rfl
@[simp] theorem State.sizeStrip_initDraws (n : Index) : (s.sizeStrip n).initDraws = s.initDraws := rfl
@[simp] theorem State.sizeStrip_writeDraws (n : Index) : (s.sizeStrip n).writeDraws = s.writeDraws := rfl
@[simp] theorem State.sizeStrip_waiting (n : Index) : (s.sizeStrip n).waiting = s.waiting := rfl
@[simp] theorem State.sizeStrip_faulted (n : Index) : (s.sizeStrip n).faulted = s.faulted := rfl
@[simp] theorem State.sizeStrip_responses (n : Index) : (s.sizeStrip n).responses = s.responses := rfl
@[simp] theorem State.sizeStrip_requests (n : Index) : (s.sizeStrip n).requests = s.requests := rfl

@[simp] theorem State.releaseStrip_life : (s.releaseStrip).life = .destroyed := rfl
@[simp] theorem State.releaseStrip_numLeds : (s.releaseStrip).numLeds = none := rfl
@[simp] theorem State.releaseStrip_footerLen : (s.releaseStrip).footerLen = none := rfl
@[simp] theorem State.releaseStrip_pix : (s.releaseStrip).pix = [] := rfl
@[simp] theorem State.releaseStrip_hdr : (s.releaseStrip).hdr = s.hdr := rfl
@[simp] theorem State.releaseStrip_ftr : (s.releaseStrip).ftr = [] := rfl
@[simp] theorem State.releaseStrip_cfg : (s.releaseStrip).cfg = s.cfg := rfl
@[simp] theorem State.releaseStrip_cmds : (s.releaseStrip).cmds = s.cmds := rfl
@[simp] theorem State.releaseStrip_initDraws : (s.releaseStrip).initDraws = s.initDraws := rfl
@[simp] theorem State.releaseStrip_writeDraws : (s.releaseStrip).writeDraws = s.writeDraws := rfl
@[simp] theorem State.releaseStrip_waiting : (s.releaseStrip).waiting = s.waiting := rfl
@[simp] theorem State.releaseStrip_faulted : (s.releaseStrip).faulted = s.faulted := rfl
@[simp] theorem State.releaseStrip_responses : (s.releaseStrip).responses = s.responses := rfl
@[simp] theorem State.releaseStrip_requests : (s.releaseStrip).requests = s.requests := rfl

@[simp] theorem respond_life (status : Status) (sub : SubCause) (err : Byte) (data : BitVec 32) : (respond status sub err data s).life = s.life := rfl
@[simp] theorem respond_numLeds (status : Status) (sub : SubCause) (err : Byte) (data : BitVec 32) : (respond status sub err data s).numLeds = s.numLeds := rfl
@[simp] theorem respond_footerLen (status : Status) (sub : SubCause) (err : Byte) (data : BitVec 32) : (respond status sub err data s).footerLen = s.footerLen := rfl
@[simp] theorem respond_pix (status : Status) (sub : SubCause) (err : Byte) (data : BitVec 32) : (respond status sub err data s).pix = s.pix := rfl
@[simp] theorem respond_hdr (status : Status) (sub : SubCause) (err : Byte) (data : BitVec 32) : (respond status sub err data s).hdr = s.hdr := rfl
@[simp] theorem respond_ftr (status : Status) (sub : SubCause) (err : Byte) (data : BitVec 32) : (respond status sub err data s).ftr = s.ftr := rfl
@[simp] theorem respond_cfg (status : Status) (sub : SubCause) (err : Byte) (data : BitVec 32) : (respond status sub err data s).cfg = s.cfg := rfl
@[simp] theorem respond_cmds (status : Status) (sub : SubCause) (err : Byte) (data : BitVec 32) : (respond status sub err data s).cmds = s.cmds := rfl
@[simp] theorem respond_initDraws (status : Status) (sub : SubCause) (err : Byte) (data : BitVec 32) : (respond status sub err data s).initDraws = s.initDraws := rfl
@[simp] theorem respond_writeDraws (status : Status) (sub : SubCause) (err : Byte) (data : BitVec 32) : (respond status sub err data s).writeDraws = s.writeDraws := rfl
@[simp] theorem respond_waiting (status : Status) (sub : SubCause) (err : Byte) (data : BitVec 32) : (respond status sub err data s).waiting = s.waiting := rfl
@[simp] theorem respond_faulted (status : Status) (sub : SubCause) (err : Byte) (data : BitVec 32) : (respond status sub err data s).faulted = s.faulted := rfl
@[simp] theorem respond_responses (status : Status) (sub : SubCause) (err : Byte) (data : BitVec 32) : (respond status sub err data s).responses = s.responses ++ [responseWord status sub err data] := rfl
@[simp] theorem respond_requests (status : Status) (sub : SubCause) (err : Byte) (data : BitVec 32) : (respond status sub err data s).requests = s.requests := rfl

@[simp] theorem respondOk_life (data : BitVec 32) : (respondOk data s).life = s.life := rfl
@[simp] theorem respondOk_numLeds (data : BitVec 32) : (respondOk data s).numLeds = s.numLeds := rfl
@[simp] theorem respondOk_footerLen (data : BitVec 32) : (respondOk data s).footerLen = s.footerLen := rfl
@[simp] theorem respondOk_pix (data : BitVec 32) : (respondOk data s).pix = s.pix := rfl
@[simp] theorem respondOk_hdr (data : BitVec 32) : (respondOk data s).hdr = s.hdr := rfl
@[simp] theorem respondOk_ftr (data : BitVec 32) : (respondOk data s).ftr = s.ftr := rfl
@[simp] theorem respondOk_cfg (data : BitVec 32) : (respondOk data s).cfg = s.cfg := rfl
@[simp] theorem respondOk_cmds (data : BitVec 32) : (respondOk data s).cmds = s.cmds := rfl
@[simp] theorem respondOk_initDraws (data : BitVec 32) : (respondOk data s).initDraws = s.initDraws := rfl
@[simp] theorem respondOk_writeDraws (data : BitVec 32) : (respondOk data s).writeDraws = s.writeDraws := rfl
@[simp] theorem respondOk_waiting (data : BitVec 32) : (respondOk data s).waiting = s.waiting := rfl
@[simp] theorem respondOk_faulted (data : BitVec 32) : (respondOk data s).faulted = s.faulted := rfl
@[simp] theorem respondOk_responses (data : BitVec 32) : (respondOk data s).responses = s.responses ++ [responseWord .ok .none 0 data] := rfl
@[simp] theorem respondOk_requests (data : BitVec 32) : (respondOk data s).requests = s.requests := rfl

@[simp] theorem illegalCommand_life : (illegalCommand s).life = s.life := rfl
@[simp] theorem illegalCommand_numLeds : (illegalCommand s).numLeds = s.numLeds := rfl
@[simp] theorem illegalCommand_footerLen : (illegalCommand s).footerLen = s.footerLen := rfl
@[simp] theorem illegalCommand_pix : (illegalCommand s).pix = s.pix := rfl
@[simp] theorem illegalCommand_hdr : (illegalCommand s).hdr = s.hdr := rfl
@[simp] theorem illegalCommand_ftr : (illegalCommand s).ftr = s.ftr := rfl
@[simp] theorem illegalCommand_cfg : (illegalCommand s).cfg = s.cfg := rfl
@[simp] theorem illegalCommand_cmds : (illegalCommand s).cmds = s.cmds := rfl
@[simp] theorem illegalCommand_initDraws : (illegalCommand s).initDraws = s.initDraws := rfl
@[simp] theorem illegalCommand_writeDraws : (illegalCommand s).writeDraws = s.writeDraws := rfl
@[simp] theorem illegalCommand_waiting : (illegalCommand s).waiting = s.waiting := rfl
@[simp] theorem illegalCommand_faulted : (illegalCommand s).faulted = s.faulted := rfl
@[simp] theorem illegalCommand_responses : (illegalCommand s).responses = s.responses ++ [responseWord .illegalCommand .none 0 0] := rfl
@[simp] theorem illegalCommand_requests : (illegalCommand s).requests = s.requests := rfl

@[simp] theorem lifecycleError_life : (lifecycleError s).life = s.life := rfl
@[simp] theorem lifecycleError_numLeds : (lifecycleError s).numLeds = s.numLeds := rfl
@[simp] theorem lifecycleError_footerLen : (lifecycleError s).footerLen = s.footerLen := rfl
@[simp] theorem lifecycleError_pix : (lifecycleError s).pix = s.pix := rfl
@[simp] theorem lifecycleError_hdr : (lifecycleError s).hdr = s.hdr := rfl
@[simp] theorem lifecycleError_ftr : (lifecycleError s).ftr = s.ftr := rfl
@[simp] theorem lifecycleError_cfg : (lifecycleError s).cfg = s.cfg := rfl
@[simp] theorem lifecycleError_cmds : (lifecycleError s).cmds = s.cmds := rfl
@[simp] theorem lifecycleError_initDraws : (lifecycleError s).initDraws = s.initDraws := rfl
@[simp] theorem lifecycleError_writeDraws : (lifecycleError s).writeDraws = s.writeDraws := rfl
@[simp] theorem lifecycleError_waiting : (lifecycleError s).waiting = s.waiting := rfl
@[simp] theorem lifecycleError_faulted : (lifecycleError s).faulted = true := rfl
@[simp] theorem lifecycleError_responses : (lifecycleError s).responses = s.responses ++ [responseWord .lifecycleError .none 0 0] := rfl
@[simp] theorem lifecycleError_requests : (lifecycleError s).requests = s.requests := rfl

@[simp] theorem requestInit_life : (requestInit s).life = s.life := rfl
@[simp] theorem requestInit_numLeds : (requestInit s).numLeds = s.numLeds := rfl
@[simp] theorem requestInit_footerLen : (requestInit s).footerLen = s.footerLen := rfl
@[simp] theorem requestInit_pix : (requestInit s).pix = s.pix := rfl
@[simp] theorem requestInit_hdr : (requestInit s).hdr = s.hdr := rfl
@[simp] theorem requestInit_ftr : (requestInit s).ftr = s.ftr := rfl
@[simp] theorem requestInit_cfg : (requestInit s).cfg = s.cfg := rfl
@[simp] theorem requestInit_cmds : (requestInit s).cmds = s.cmds := rfl
@[simp] theorem requestInit_initDraws : (requestInit s).initDraws = s.initDraws.tail := rfl
@[simp] theorem requestInit_writeDraws : (requestInit s).writeDraws = s.writeDraws := rfl
@[simp] theorem requestInit_waiting : (requestInit s).waiting = s.waiting := rfl
@[simp] theorem requestInit_faulted : (requestInit s).faulted = s.faulted := rfl
@[simp] theorem requestInit_responses : (requestInit s).responses = s.responses := rfl
@[simp] theorem requestInit_requests : (requestInit s).requests = s.requests ++ [.init s.initDraws.head] := rfl

@[simp] theorem requestWrite_life (h p f : List Byte) : (requestWrite h p f s).life = s.life := rfl
@[simp] theorem requestWrite_numLeds (h p f : List Byte) : (requestWrite h p f s).numLeds = s.numLeds := rfl
@[simp] theorem requestWrite_footerLen (h p f : List Byte) : (requestWrite h p f s).footerLen = s.footerLen := rfl
@[simp] theorem requestWrite_pix (h p f : List Byte) : (requestWrite h p f s).pix = s.pix := rfl
@[simp] theorem requestWrite_hdr (h p f : List Byte) : (requestWrite h p f s).hdr = s.hdr := rfl
@[simp] theorem requestWrite_ftr (h p f : List Byte) : (requestWrite h p f s).ftr = s.ftr := rfl
@[simp] theorem requestWrite_cfg (h p f : List Byte) : (requestWrite h p f s).cfg = s.cfg := rfl
@[simp] theorem requestWrite_cmds (h p f : List Byte) : (requestWrite h p f s).cmds = s.cmds := rfl
@[simp] theorem requestWrite_initDraws (h p f : List Byte) : (requestWrite h p f s).initDraws = s.initDraws := rfl
@[simp] theorem requestWrite_writeDraws (h p f : List Byte) : (requestWrite h p f s).writeDraws = s.writeDraws.tail := rfl
@[simp] theorem requestWrite_waiting (h p f : List Byte) : (requestWrite h p f s).waiting = s.waiting := rfl
@[simp] theorem requestWrite_faulted (h p f : List Byte) : (requestWrite h p f s).faulted = s.faulted := rfl
@[simp] theorem requestWrite_responses (h p f : List Byte) : (requestWrite h p f s).responses = s.responses := rfl
@[simp] theorem requestWrite_requests (h p f : List Byte) : (requestWrite h p f s).requests = s.requests ++ [.write h p f s.writeDraws.head] := rfl

@[simp] theorem requestTeardown_life : (requestTeardown s).life = s.life := rfl
@[simp] theorem requestTeardown_numLeds : (requestTeardown s).numLeds = s.numLeds := rfl
@[simp] theorem requestTeardown_footerLen : (requestTeardown s).footerLen = s.footerLen := rfl
@[simp] theorem requestTeardown_pix : (requestTeardown s).pix = s.pix := rfl
@[simp] theorem requestTeardown_hdr : (requestTeardown s).hdr = s.hdr := rfl
@[simp] theorem requestTeardown_ftr : (requestTeardown s).ftr = s.ftr := rfl
@[simp] theorem requestTeardown_cfg : (requestTeardown s).cfg = s.cfg := rfl
@[simp] theorem requestTeardown_cmds : (requestTeardown s).cmds = s.cmds := rfl
@[simp] theorem requestTeardown_initDraws : (requestTeardown s).initDraws = s.initDraws := rfl
@[simp] theorem requestTeardown_writeDraws : (requestTeardown s).writeDraws = s.writeDraws := rfl
@[simp] theorem requestTeardown_waiting : (requestTeardown s).waiting = s.waiting := rfl
@[simp] theorem requestTeardown_faulted : (requestTeardown s).faulted = s.faulted := rfl
@[simp] theorem requestTeardown_responses : (requestTeardown s).responses = s.responses := rfl
@[simp] theorem requestTeardown_requests : (requestTeardown s).requests = s.requests ++ [.teardown] := rfl

@[simp] theorem State.setPix_self : s.setPix s.pix = s := rfl

end Sys2Proof.Machine
end

