-- ==== Sys2Proof/Laws/Ops.lean ====
section
/-! SUPPORT. What each shared check and read can do, once (Machine/Ops.lean), and how the invariant makes each of them go on. -/

-- One theorem after the other, not in parallel: a check then needs far less memory.
set_option Elab.async false

namespace Sys2Proof.Machine

variable {s t : State}

/-! ## The shared checks -/

/-- A command but CREATE either runs in Ready or is answered with LIFECYCLE_ERROR. -/
theorem whenReady_next {k : Out} :
    whenReady s k = .next t ↔ (s.life = .ready ∧ k = .next t) ∨ (s.life ≠ .ready ∧ t = lifecycleError s) := by
  unfold whenReady
  cases s.life <;> simp [eq_comm]

theorem whenReady_of_ready {k : Out} (h : s.life = .ready) : whenReady s k = k := by
  simp [whenReady, h]

theorem whenReady_of_not_ready {k : Out} (h : s.life ≠ .ready) : whenReady s k = .next (lifecycleError s) := by
  unfold whenReady
  cases hl : s.life <;> simp_all

theorem withCount_next {k : Index → Out} :
    withCount s k = .next t ↔ ∃ n, s.numLeds = some n ∧ k n = .next t := by
  unfold withCount
  cases s.numLeds <;> simp

theorem withFooterLen_next {k : BitVec 13 → Out} :
    withFooterLen s k = .next t ↔ ∃ f, s.footerLen = some f ∧ k f = .next t := by
  unfold withFooterLen
  cases s.footerLen <;> simp

theorem withRecord_next {i : Nat} {k : Pixel → Out} :
    withRecord s i k = .next t ↔ ∃ p, s.pix[i]? = some p ∧ k p = .next t := by
  unfold withRecord
  cases s.pix[i]? <;> simp

theorem withStrip_next {n : Index} {k : List Pixel → Out} :
    withStrip s n k = .next t ↔ s.pix.length = n.toNat ∧ k s.pix = .next t := by
  unfold withStrip
  split <;> simp_all

theorem withFooter_next {f : BitVec 13} {k : List Byte → Out} :
    withFooter s f k = .next t ↔ s.ftr.length = f.toNat ∧ k s.ftr = .next t := by
  unfold withFooter
  split <;> simp_all

/-! ## The shared reads go on in a Ready state that meets the invariant -/

section Reads
variable {n : Index}

theorem withCount_eq {k : Index → Out} (h : s.numLeds = some n) : withCount s k = k n := by
  simp [withCount, h]

theorem withFooterLen_eq {f : BitVec 13} {k : BitVec 13 → Out} (h : s.footerLen = some f) : withFooterLen s k = k f := by
  simp [withFooterLen, h]

theorem withStrip_eq {k : List Pixel → Out} (h : s.pix.length = n.toNat) : withStrip s n k = k s.pix := by
  simp [withStrip, h]

theorem withFooter_eq {f : BitVec 13} {k : List Byte → Out} (h : s.ftr = footerBytes f) : withFooter s f k = k s.ftr := by
  simp [withFooter, h, footerBytes]

theorem withRecord_eq {i : Nat} {p : Pixel} {k : Pixel → Out} (h : s.pix[i]? = some p) : withRecord s i k = k p := by
  simp [withRecord, h]

/-- In a Ready state every index below the count names a record. -/
theorem State.Sized.record (hs : s.Sized n) {i : Nat} (hi : i < n.toNat) : ∃ p, s.pix[i]? = some p :=
  ⟨s.pix[i]'(by rw [hs.length]; exact hi), by simp⟩

theorem State.Inv.count_unique (h : s.Inv) (hr : s.life = .ready) (hn : s.numLeds = some n) : s.Sized n := by
  obtain ⟨m, hm⟩ := h.sized hr
  have : m = n := by simpa [hm.numLeds] using hn
  exact this ▸ hm

end Reads

/-! ## The draws -/

@[simp] theorem Draws.head_nil {α : Type} (r : α) : (Draws.mk [] r).head = r := rfl
@[simp] theorem Draws.head_cons {α : Type} (a : α) (as : List α) (r : α) : (Draws.mk (a :: as) r).head = a := rfl
@[simp] theorem Draws.tail_nil {α : Type} (r : α) : (Draws.mk [] r).tail = Draws.mk [] r := rfl
@[simp] theorem Draws.tail_cons {α : Type} (a : α) (as : List α) (r : α) : (Draws.mk (a :: as) r).tail = Draws.mk as r := rfl

/-! ## The moves of the pixel store keep its length -/

@[simp] theorem length_writeRecord (i : Nat) (p : Pixel) (records : List Pixel) :
    (writeRecord i p records).length = records.length := by simp [writeRecord]

@[simp] theorem length_eachLane (f : Pixel → Pixel) (records : List Pixel) :
    (eachLane f records).length = records.length := by simp [eachLane]

@[simp] theorem length_shiftBack (p : Pixel) (records : List Pixel) :
    (shiftBack p records).length = records.length := by simp [shiftBack]

@[simp] theorem length_shiftFront (p : Pixel) (records : List Pixel) :
    (shiftFront p records).length = records.length := by simp [shiftFront]

/-! ## Legal records -/

@[simp] theorem Pixel.legal_pack (r g b br : Byte) : (pack r g b br).legal = true := by
  simp only [Pixel.legal, pack, beq_iff_eq]
  apply BitVec.eq_of_getLsbD_eq
  intro i hi
  have : i = 0 ∨ i = 1 ∨ i = 2 := by omega
  rcases this with rfl | rfl | rfl <;> simp

@[simp] theorem Pixel.legal_off : off.legal = true := by decide

theorem legal_of_mem_writeRecord {i : Nat} {p q : Pixel} {records : List Pixel}
    (hp : p.legal = true) (h : ∀ x ∈ records, x.legal = true) (hq : q ∈ writeRecord i p records) : q.legal = true := by
  rcases List.mem_or_eq_of_mem_set hq with hq | rfl
  · exact h q hq
  · exact hp

theorem legal_of_mem_shiftBack {p q : Pixel} {records : List Pixel}
    (hp : p.legal = true) (h : ∀ x ∈ records, x.legal = true) (hq : q ∈ shiftBack p records) : q.legal = true := by
  rcases List.mem_cons.mp (List.mem_of_mem_take hq) with rfl | hq
  · exact hp
  · exact h q hq

theorem legal_of_mem_shiftFront {p q : Pixel} {records : List Pixel}
    (hp : p.legal = true) (h : ∀ x ∈ records, x.legal = true) (hq : q ∈ shiftFront p records) : q.legal = true := by
  rcases List.mem_append.mp (List.mem_of_mem_drop hq) with hq | hq
  · exact h q hq
  · simpa [List.mem_singleton.mp hq] using hp

/-! ## The step -/

@[simp] theorem presented_waiting (h : s.waiting = true) : presented s = .nothing := by simp [presented, h]

@[simp] theorem presented_idle (h : s.cmds = []) : presented s = .nothing := by
  unfold presented; split <;> simp [h]

theorem presented_word {w : Word} {rest : List Word} (hw : s.waiting = false) (hc : s.cmds = w :: rest) :
    presented s = presentedWord w := by simp [presented, hw, hc]

end Sys2Proof.Machine
end

