-- ==== Sys2Proof/Laws/Memory.lean ====
section
/-! SUPPORT. The pixel store as a memory: its canonical form holds of every store, so every operation keeps it, and equal
memories are equal stores (log 18). -/

-- One theorem after the other, not in parallel: a check then needs far less memory.
set_option Elab.async false

namespace Sys2Proof.Machine

/-- Every store is canonical as a memory. The moves of the store answer stores, so they keep the form. -/
theorem memoryCells_wf (records : List Pixel) : Memory.wf (memoryCells records) = true := by
  simp only [Memory.wf, memoryCells, decide_eq_true_eq, List.pairwise_map]
  rw [List.pairwise_iff_getElem]
  intro i j hi hj hij
  simpa using hij

/-- The memory of the state after reset is canonical: nothing is listed. -/
theorem memoryCells_reset : memoryCells State.reset.pix = [] := rfl

theorem pixBytesOf_cons (p : Pixel) (records : List Pixel) :
    pixBytesOf (p :: records) = p.byte0 :: p.byte1 :: p.byte2 :: p.byte3 :: pixBytesOf records := rfl

/-- Four bytes for each record (R52). -/
@[simp] theorem length_pixBytesOf (records : List Pixel) : (pixBytesOf records).length = 4 * records.length := by
  induction records with
  | nil => rfl
  | cons p records ih => simp [pixBytesOf_cons, ih]; omega

/-- The bytes determine the store. -/
theorem pixBytesOf_injective {xs ys : List Pixel} (h : pixBytesOf xs = pixBytesOf ys) : xs = ys := by
  induction xs generalizing ys with
  | nil =>
    cases ys with
    | nil => rfl
    | cons y ys => simp [pixBytesOf] at h; cases h.1
  | cons x xs ih =>
    cases ys with
    | nil => simp [pixBytesOf] at h; cases h.1
    | cons y ys =>
      simp only [pixBytesOf_cons, List.cons.injEq] at h
      obtain ⟨h0, h1, h2, h3, h4⟩ := h
      rw [ih h4]
      cases x; cases y
      simp_all

/-- Equal memories are equal stores. -/
theorem memoryCells_injective {xs ys : List Pixel} (h : memoryCells xs = memoryCells ys) : xs = ys := by
  apply pixBytesOf_injective
  have := congrArg (List.map Prod.snd) h
  simpa [memoryCells, Function.comp_def, List.zipIdx_map_fst] using this

end Sys2Proof.Machine
end

