-- ==== Sys2Proof/Laws/PerInstr.lean ====
section
/-! SUPPORT. The family `OpField`: the canonical word of every command holds the command's operation code in
CW[63:60] and zero in the reserved field (R80, R83, R90), one lemma per constructor. -/

-- One theorem after the other, not in parallel: a check then needs far less memory.
set_option Elab.async false

namespace Sys2Proof.Laws.OpField

/-- What the family says of one command. -/
def Statement (i : Instr) : Prop := opField (encode i) = i.mnemonic.opcode ∧ rsvField (encode i) = 0

theorem create (n : Index) : Statement (.create n) := by simp [Statement, encode]
theorem destroy : Statement .destroy := by simp [Statement, encode]
theorem showStrip : Statement .showStrip := by simp [Statement, encode]
theorem get (idx : Index) : Statement (.get idx) := by simp [Statement, encode]
theorem setcb (idx : Index) (r g b br : Byte) : Statement (.setcb idx r g b br) := by simp [Statement, encode]
theorem setc (idx : Index) (r g b : Byte) : Statement (.setc idx r g b) := by simp [Statement, encode]
theorem setb (idx : Index) (br : Byte) : Statement (.setb idx br) := by simp [Statement, encode]
theorem clear : Statement .clear := by simp [Statement, encode]
theorem fillcb (r g b br : Byte) : Statement (.fillcb r g b br) := by simp [Statement, encode]
theorem fillc (r g b : Byte) : Statement (.fillc r g b) := by simp [Statement, encode]
theorem fillb (br : Byte) : Statement (.fillb br) := by simp [Statement, encode]
theorem pushf (r g b br : Byte) : Statement (.pushf r g b br) := by simp [Statement, encode]
theorem pushb (r g b br : Byte) : Statement (.pushb r g b br) := by simp [Statement, encode]
theorem rotl : Statement .rotl := by simp [Statement, encode]
theorem rotr : Statement .rotr := by simp [Statement, encode]

end Sys2Proof.Laws.OpField
end

