-- ==== Sys2Proof/Laws/Step.lean ====
section
/-! SUPPORT. What a command and a step can do, once: the inversion of `exec` and of `step`, which later proofs cite instead of
unfolding them. -/

-- One theorem after the other, not in parallel: a check then needs far less memory.
set_option Elab.async false

namespace Sys2Proof.Machine

variable {s t : State} {i : Instr}

/-- The eleven commands that act on the pixel store alone. -/
def actsOnPixels (i : Instr) : Bool :=
  match i with
  | .create _ => false
  | .destroy => false
  | .showStrip => false
  | .get _ => true
  | .setcb _ _ _ _ _ => true
  | .setc _ _ _ _ => true
  | .setb _ _ => true
  | .clear => true
  | .fillcb _ _ _ _ => true
  | .fillc _ _ _ => true
  | .fillb _ => true
  | .pushf _ _ _ _ => true
  | .pushb _ _ _ _ => true
  | .rotl => true
  | .rotr => true

/-- What a command on the pixel store does in Ready: it answers OK with some data and leaves the store at some records, as many as
before and legal if all were legal before; nothing else changes. -/
structure PixelEffect (s t : State) : Prop where
  ready : s.life = .ready
  next : ∃ records data, t = respondOk data (s.setPix records) ∧
    (∀ n, s.numLeds = some n → s.pix.length = n.toNat → records.length = n.toNat) ∧
    ((∀ p ∈ s.pix, p.legal = true) → ∀ p ∈ records, p.legal = true)

theorem pixelEffect_same {data : BitVec 32} (hr : s.life = .ready) (ht : t = respondOk data s) : PixelEffect s t :=
  ⟨hr, s.pix, data, by simpa using ht, fun _ _ h => h, fun h => h⟩

theorem pixelEffect_of_length {records : List Pixel} {data : BitVec 32} (hr : s.life = .ready)
    (ht : t = respondOk data (s.setPix records)) (hl : records.length = s.pix.length)
    (hp : (∀ p ∈ s.pix, p.legal = true) → ∀ p ∈ records, p.legal = true) : PixelEffect s t :=
  ⟨hr, records, data, ht, fun _ _ h => hl.trans h, hp⟩

/-- The eleven commands, inverted. -/
theorem exec_pixels_next (hi : actsOnPixels i = true) (h : exec i s = .next t) :
    PixelEffect s t ∨ (s.life ≠ .ready ∧ t = lifecycleError s) := by
  cases i <;> simp only [actsOnPixels, Bool.false_eq_true] at hi <;>
    simp only [exec, execGet, execSetcb, execSetc, execSetb, execClear, execFillcb, execFillc, execFillb, execPushf,
      execPushb, execRotl, execRotr, whenReady_next, withCount_next, withStrip_next, withRecord_next] at h <;>
    rcases h with ⟨hr, n, hn, h⟩ | h <;> first | exact .inr h | left
  case get idx =>
    split at h
    · obtain ⟨p, -, h⟩ := withRecord_next.mp h
      exact pixelEffect_same hr (by simpa [eq_comm] using h)
    · exact pixelEffect_same hr (by simpa [eq_comm] using h)
  case setcb idx r g b br =>
    split at h
    · exact pixelEffect_of_length hr (by simpa [eq_comm] using h) (by simp) fun hl p => legal_of_mem_writeRecord (by simp) hl
    · exact pixelEffect_same hr (by simpa [eq_comm] using h)
  case setc idx r g b =>
    split at h
    · obtain ⟨p, -, h⟩ := withRecord_next.mp h
      exact pixelEffect_of_length hr (by simpa [eq_comm] using h) (by simp) fun hl p =>
        legal_of_mem_writeRecord (by simp [recolour]) hl
    · exact pixelEffect_same hr (by simpa [eq_comm] using h)
  case setb idx br =>
    split at h
    · obtain ⟨p, -, h⟩ := withRecord_next.mp h
      exact pixelEffect_of_length hr (by simpa [eq_comm] using h) (by simp) fun hl p =>
        legal_of_mem_writeRecord (by simp [rebright]) hl
    · exact pixelEffect_same hr (by simpa [eq_comm] using h)
  case clear =>
    refine ⟨hr, _, _, by simpa [eq_comm] using h, ?_, ?_⟩
    · intro m hm _; simp_all
    · intro _ p hp; simp [(List.mem_replicate.mp hp).2]
  case fillcb r g b br =>
    refine ⟨hr, _, _, by simpa [eq_comm] using h, ?_, ?_⟩
    · intro m hm _; simp_all
    · intro _ p hp; simp [(List.mem_replicate.mp hp).2]
  case fillc r g b =>
    exact pixelEffect_of_length hr (by simpa [eq_comm] using h.2) (by simp) fun _ p hp => by
      obtain ⟨q, -, rfl⟩ := List.mem_map.mp hp; simp [recolour]
  case fillb br =>
    exact pixelEffect_of_length hr (by simpa [eq_comm] using h.2) (by simp) fun _ p hp => by
      obtain ⟨q, -, rfl⟩ := List.mem_map.mp hp; simp [rebright]
  case pushf r g b br =>
    exact pixelEffect_of_length hr (by simpa [eq_comm] using h.2) (by simp) fun hl p => legal_of_mem_shiftBack (by simp) hl
  case pushb r g b br =>
    exact pixelEffect_of_length hr (by simpa [eq_comm] using h.2) (by simp) fun hl p => legal_of_mem_shiftFront (by simp) hl
  case rotl =>
    obtain ⟨-, p, -, h⟩ := h
    exact pixelEffect_of_length hr (by simpa [eq_comm] using h) (by simp) fun hl p =>
      legal_of_mem_shiftFront (by simp [repack]) hl
  case rotr =>
    obtain ⟨-, p, -, h⟩ := h
    exact pixelEffect_of_length hr (by simpa [eq_comm] using h) (by simp) fun hl p =>
      legal_of_mem_shiftBack (by simp [repack]) hl

/-- SHOW, inverted: in Ready, one request with the bytes as they stand, then what the answer says. -/
theorem exec_show_next (h : exec .showStrip s = .next t) :
    (s.life = .ready ∧
      t = afterWrite s.writeDraws.head (requestWrite s.hdr.toList (pixBytesOf s.pix) s.ftr s)) ∨
    (s.life ≠ .ready ∧ t = lifecycleError s) := by
  simp only [exec, execShow, whenReady_next, withCount_next, withStrip_next, withFooterLen_next, withFooter_next] at h
  rcases h with ⟨hr, n, -, -, f, -, -, h⟩ | h
  · exact .inl ⟨hr, by simpa [eq_comm] using h⟩
  · exact .inr h

/-- DESTROY, inverted. -/
theorem exec_destroy_next (h : exec .destroy s = .next t) :
    (s.life = .ready ∧ t = respondOk 0 (requestTeardown s).releaseStrip) ∨ (s.life ≠ .ready ∧ t = lifecycleError s) := by
  simp only [exec, execDestroy, whenReady_next] at h
  rcases h with ⟨hr, h⟩ | h
  · exact .inl ⟨hr, by simpa [eq_comm] using h⟩
  · exact .inr h

/-- CREATE, inverted. -/
theorem exec_create_next {n : Index} (h : exec (.create n) s = .next t) :
    (s.life = .uninitialized ∧ t = afterInit n s.initDraws.head (requestInit s)) ∨
    (s.life ≠ .uninitialized ∧ t = lifecycleError s) := by
  simp only [exec, execCreate, createState, Host.Outcome.next.injEq] at h
  subst h
  cases hl : s.life <;> simp

/-- The step, inverted: idle or hanging, an illegal word, or the command of the host's next word. -/
theorem step_next (h : step s = .next t) :
    (t = s ∧ (s.waiting = true ∨ s.cmds = [])) ∨
    ∃ w rest, s.waiting = false ∧ s.cmds = w :: rest ∧
      ((∃ why, decode w = .illegal why ∧ t = illegalCommand s.takeCommand) ∨
       ∃ i, decode w = .instr i ∧ exec i s.takeCommand = .next t) := by
  unfold step presented at h
  cases hw : s.waiting with
  | true => simp [hw] at h; exact .inl ⟨h.symm, .inl rfl⟩
  | false =>
    cases hc : s.cmds with
    | nil => simp [hw, hc] at h; exact .inl ⟨h.symm, .inr rfl⟩
    | cons w rest =>
      right
      refine ⟨w, rest, rfl, rfl, ?_⟩
      simp only [hw, hc, Bool.false_eq_true, if_false, presentedWord] at h
      cases hd : decode w with
      | illegal why => simp [hd] at h; exact .inl ⟨why, rfl, h.symm⟩
      | instr i => simp [hd] at h; exact .inr ⟨i, rfl, h⟩

/-- A step of one instance among several (R268). -/
theorem stepAt_next {sys : System} {i : Nat} (hi : sys[i]? = some s) (h : step s = .next t) :
    System.stepAt sys i = .next (sys.set i t) := by
  simp [System.stepAt, hi, h]

end Sys2Proof.Machine
end

