-- ==== Sys2Proof/Tests/Slice0.lean ====
section
/-! SUPPORT. The model's own tests. Every expected value is taken from the spec: the vectors of 95_test_vectors.md (named S1 to
S10, V-C, V-E, V-A, V-W, V-S, V-F, V-L) or the examples of the rules. Then one witness for every statement that has
hypotheses. -/

-- One theorem after the other, not in parallel: a check then needs far less memory.
set_option Elab.async false

namespace Sys2Proof.Tests

open Sys2Proof.Machine

/-! ## WellFormed: each check refuses an ill-formed line (R88) -/

theorem test_line_wellformed : (AsmLine.mk .SETCB [0, 255, 0, 0, 40]).wellFormed = true := by decide
theorem test_line_too_few_operands : (AsmLine.mk .SETC [1, 10, 20]).countOk = false := by decide
theorem test_line_too_many_operands : (AsmLine.mk .ROTL [1]).wellFormed = false := by decide
theorem test_line_index_too_large : (AsmLine.mk .GET [65536]).operandsFit = false := by decide
theorem test_line_colour_too_large : (AsmLine.mk .FILLC [0, 256, 0]).wellFormed = false := by decide
theorem test_line_brightness_too_large : (AsmLine.mk .SETB [2, 256]).wellFormed = false := by decide
theorem test_line_negative : (AsmLine.mk .FILLB [-1]).wellFormed = false := by decide
theorem test_line_largest : (AsmLine.mk .SETB [65535, 255]).wellFormed = true := by decide

/-! ## The assembler: text to word (R88, R90, V-E) -/

theorem test_text_create : assembleText "CREATE 3".toList = some 0x1000000300000000#64 := by decide
theorem test_text_setcb : assembleText "SETCB 0, 255, 0, 0, 40".toList = some 0x50000000FF000028#64 := by decide
theorem test_text_hex_and_comment : assembleText "FILLB 0x1F ; full".toList = some 0xB00000000000001F#64 := by decide
theorem test_text_show : assembleText "SHOW".toList = some 0x3000000000000000#64 := by decide
theorem test_text_refused : assembleText "GET 65536".toList = none := by decide
theorem test_text_negative_refused : assembleText "SETB 0, -1".toList = none := by decide
theorem test_text_lower_case_refused : assembleText "show".toList = none := by decide

/-! ## Decode: each constructor from a word written out from R80 and R83 (V-E) -/

theorem test_decode_create : decode 0x1000FFFF00000000#64 = .instr (.create 65535) := by decide
theorem test_decode_destroy : decode 0x2000000000000000#64 = .instr .destroy := by decide
theorem test_decode_show_junk : decode 0x30000007AABBCCDD#64 = .instr .showStrip := by decide
theorem test_decode_get_junk : decode 0x40000001DEADBEEF#64 = .instr (.get 1) := by decide
theorem test_decode_setcb : decode 0x5000000211223344#64 = .instr (.setcb 2 17 34 51 68) := by decide
theorem test_decode_setc_junk : decode 0x600000010A141EFF#64 = .instr (.setc 1 10 20 30) := by decide
theorem test_decode_setb_junk : decode 0x70000002FFFFFF05#64 = .instr (.setb 2 5) := by decide
theorem test_decode_clear : decode 0x8000000000000000#64 = .instr .clear := by decide
theorem test_decode_fillcb : decode 0x9000000011223344#64 = .instr (.fillcb 17 34 51 68) := by decide
theorem test_decode_fillc : decode 0xA000000011223300#64 = .instr (.fillc 17 34 51) := by decide
theorem test_decode_fillb_junk : decode 0xB000FFFF00000009#64 = .instr (.fillb 9) := by decide
theorem test_decode_pushf : decode 0xC000000011223344#64 = .instr (.pushf 17 34 51 68) := by decide
theorem test_decode_pushb : decode 0xD000000011223344#64 = .instr (.pushb 17 34 51 68) := by decide
theorem test_decode_rotl_junk : decode 0xE00012345678ABCD#64 = .instr .rotl := by decide
theorem test_decode_rotr : decode 0xF000000000000000#64 = .instr .rotr := by decide

theorem test_decode_zero_word : decode 0x0000000000000000#64 = .illegal .reservedOpcode := by decide
theorem test_decode_op_zero : decode 0x0000000300000000#64 = .illegal .reservedOpcode := by decide
theorem test_decode_rsv_low : decode 0x1001000300000000#64 = .illegal .reservedBits := by decide
theorem test_decode_rsv_high : decode 0x3800000000000000#64 = .illegal .reservedBits := by decide
theorem test_decode_all_ones : decode 0xFFFFFFFFFFFFFFFF#64 = .illegal .reservedBits := by decide

theorem test_encode_create : encode (.create 3) = 0x1000000300000000#64 := by decide
theorem test_encode_setc : encode (.setc 1 10 20 30) = 0x600000010A141E00#64 := by decide
theorem test_encode_pushb : encode (.pushb 17 34 51 68) = 0xD000000011223344#64 := by decide

/-- The opcode table's numbering: the word itself; bits above `nbits` are zero. -/
theorem test_decode_table_word : decodeTableWord 64 0x5000000211223344 = some (.setcb 2 17 34 51 68) := by decide
theorem test_decode_table_word_short : decodeTableWord 32 0x5000000211223344 = none := by decide

/-! ## Codec and framer (V-C, V-F) -/

theorem test_pack_source_example : pack 10 20 30 31 = ⟨0xFF, 0x1E, 0x14, 0x0A⟩ := by decide
theorem test_pack_clamps_not_masks : (pack 1 2 3 32, pack 1 2 3 64) = (⟨0xFF, 3, 2, 1⟩, ⟨0xFF, 3, 2, 1⟩) := by decide
theorem test_pack_zero : pack 0 0 0 0 = ⟨0xE0, 0, 0, 0⟩ := by decide
theorem test_unpack_any_record : unpack ⟨0x7F, 9, 9, 9⟩ = ⟨9, 9, 9, 31⟩ := by decide
theorem test_word_view : (pack 128 64 32 16).word = 0x804020F0#32 := by decide
theorem test_life_codes : (Life.uninitialized.code, Life.ready.code, Life.destroyed.code) = (0, 1, 2) := by decide
theorem test_footer_source_values : [1, 16, 17, 300].map footerLenNat = [1, 1, 2, 19] := by decide
theorem test_footer_no_wrap : (footerLenOf 65521, footerLenOf 65535) = (4096, 4096) := by decide

/-! ## Response words (V-E) -/

theorem test_response_get : responseWord .ok .none 0 (getData ⟨10, 20, 30, 31⟩) = 0x000000000A141E1F#64 := by decide
theorem test_response_transport_init : responseWord .constructionError .transportInit 0x2A 0 = 0x1000022A00000000#64 := by decide
theorem test_response_io_error : responseWord .ioError .none 0x05 0 = 0x2000000500000000#64 := by decide

/-! ## States for one-step tests -/

/-- After reset, with the given MAXLEDS and answers. -/
def fresh (maxLeds : Index) (init : InitAnswer) : State :=
  State.boot ⟨maxLeds⟩ [] ⟨[init], .initOk⟩ ⟨[], .writeOk⟩

/-- Ready with these records; the transport's next answer to a write is given. -/
def strip (n : Index) (records : List Pixel) (answer : WriteAnswer) : State :=
  { State.boot Config.default [] ⟨[], .initOk⟩ ⟨[answer], .writeOk⟩ with
    life := .ready, numLeds := some n, footerLen := some (footerLenOf n), ftr := footerBytes (footerLenOf n)
    pix := records, requests := [.init .initOk] }

/-- Destroyed. -/
def gone : State := { fresh 300 .initOk with life := .destroyed, requests := [.init .initOk, .teardown] }

/-- The store of V-W step 4. -/
def three : List Pixel := [⟨0xE4, 3, 2, 1⟩, ⟨0xE8, 7, 6, 5⟩, ⟨0xEC, 0x0B, 0x0A, 9⟩]
/-- The store of V-S step 5: A B C D. -/
def four : List Pixel := [⟨0xE1, 0x0C, 0x0B, 0x0A⟩, ⟨0xE2, 0x1C, 0x1B, 0x1A⟩, ⟨0xE3, 0x2C, 0x2B, 0x2A⟩, ⟨0xE4, 0x3C, 0x3B, 0x3A⟩]
def strip3 : State := strip 3 three .writeOk
def strip4 : State := strip 4 four .writeOk
def strip1 : State := strip 1 [⟨0xE4, 3, 2, 1⟩] (.ioError 5)

/-- One step that takes the word; what `view` sees of the state after it. -/
def sees {α : Type} (s : State) (w : Word) (view : State → α) : Option α :=
  match step { s with cmds := [w] } with
  | .next t => some (view t)
  | .fault _ => none
  | .refused _ => none

/-- The response given by the step and the store after it. -/
def result (s : State) : List Word × List Pixel := (s.responses, s.pix)

/-! ## One step of each command (V-A, V-W, V-S, V-L) -/

theorem test_get_in_range : sees strip3 0x4000000200000000#64 result = some ([0x00000000090A0B0C#64], three) := by decide
theorem test_get_at_count : sees strip3 0x4000000300000000#64 result = some ([0#64], three) := by decide
/-- V-A step 4: brightness 40 stores 31. -/
theorem test_setcb_clamps : sees strip3 0x50000000FF000028#64 result =
    some ([0#64], [⟨0xFF, 0, 0, 0xFF⟩, ⟨0xE8, 7, 6, 5⟩, ⟨0xEC, 0x0B, 0x0A, 9⟩]) := by decide
theorem test_setcb_out_of_range : sees strip3 0x5000FFFF01010101#64 result = some ([0#64], three) := by decide
/-- V-E's behavioural check: the ignored `br` field is not stored. -/
theorem test_setc_keeps_brightness : sees strip3 0x600000010A141EFF#64 result =
    some ([0#64], [⟨0xE4, 3, 2, 1⟩, ⟨0xE8, 0x1E, 0x14, 0x0A⟩, ⟨0xEC, 0x0B, 0x0A, 9⟩]) := by decide
theorem test_setc_out_of_range : sees strip3 0x6000000309090900#64 result = some ([0#64], three) := by decide
/-- V-A step 9: the colour stays. -/
theorem test_setb_keeps_colour : sees strip3 0x7000000200000020#64 result =
    some ([0#64], [⟨0xE4, 3, 2, 1⟩, ⟨0xE8, 7, 6, 5⟩, ⟨0xFF, 0x0B, 0x0A, 9⟩]) := by decide
theorem test_setb_out_of_range : sees strip3 0x7000FFFF00000009#64 result = some ([0#64], three) := by decide
theorem test_clear : sees strip3 0x8000000000000000#64 result =
    some ([0#64], [⟨0xFF, 0, 0, 0⟩, ⟨0xFF, 0, 0, 0⟩, ⟨0xFF, 0, 0, 0⟩]) := by decide
/-- V-W step 10. -/
theorem test_fillcb : sees strip3 0x90000000FFFEFDFC#64 result =
    some ([0#64], [⟨0xFF, 0xFD, 0xFE, 0xFF⟩, ⟨0xFF, 0xFD, 0xFE, 0xFF⟩, ⟨0xFF, 0xFD, 0xFE, 0xFF⟩]) := by decide
/-- V-W step 5. -/
theorem test_fillc : sees strip3 0xA000000064656600#64 result =
    some ([0#64], [⟨0xE4, 0x66, 0x65, 0x64⟩, ⟨0xE8, 0x66, 0x65, 0x64⟩, ⟨0xEC, 0x66, 0x65, 0x64⟩]) := by decide
/-- R154's rule on V-W's store: 200 clamps to 31 and the colours stay. -/
theorem test_fillb : sees strip3 0xB0000000000000C8#64 result =
    some ([0#64], [⟨0xFF, 3, 2, 1⟩, ⟨0xFF, 7, 6, 5⟩, ⟨0xFF, 0x0B, 0x0A, 9⟩]) := by decide
/-- S4 step 6. -/
theorem test_pushf : sees strip4 0xC000000009080706#64 result =
    some ([0#64], [⟨0xE6, 7, 8, 9⟩, ⟨0xE1, 0x0C, 0x0B, 0x0A⟩, ⟨0xE2, 0x1C, 0x1B, 0x1A⟩, ⟨0xE3, 0x2C, 0x2B, 0x2A⟩]) := by decide
/-- V-S, one pixel, with the clamp of step 8. -/
theorem test_pushf_one_pixel : sees strip1 0xC0000000010203FF#64 result = some ([0#64], [⟨0xFF, 3, 2, 1⟩]) := by decide
/-- S5 step 6. -/
theorem test_pushb : sees strip4 0xD000000009080706#64 result =
    some ([0#64], [⟨0xE2, 0x1C, 0x1B, 0x1A⟩, ⟨0xE3, 0x2C, 0x2B, 0x2A⟩, ⟨0xE4, 0x3C, 0x3B, 0x3A⟩, ⟨0xE6, 7, 8, 9⟩]) := by decide
theorem test_pushb_one_pixel : sees strip1 0xD0000000090A0B0C#64 result = some ([0#64], [⟨0xEC, 0x0B, 0x0A, 9⟩]) := by decide
/-- S6 step 6: B C D A. -/
theorem test_rotl : sees strip4 0xE000000000000000#64 result =
    some ([0#64], [⟨0xE2, 0x1C, 0x1B, 0x1A⟩, ⟨0xE3, 0x2C, 0x2B, 0x2A⟩, ⟨0xE4, 0x3C, 0x3B, 0x3A⟩, ⟨0xE1, 0x0C, 0x0B, 0x0A⟩]) := by decide
theorem test_rotl_one_pixel : sees strip1 0xE000000000000000#64 result = some ([0#64], [⟨0xE4, 3, 2, 1⟩]) := by decide
/-- V-S step 6: D A B C. -/
theorem test_rotr : sees strip4 0xF000000000000000#64 result =
    some ([0#64], [⟨0xE4, 0x3C, 0x3B, 0x3A⟩, ⟨0xE1, 0x0C, 0x0B, 0x0A⟩, ⟨0xE2, 0x1C, 0x1B, 0x1A⟩, ⟨0xE3, 0x2C, 0x2B, 0x2A⟩]) := by decide
theorem test_rotr_one_pixel : sees strip1 0xF000000000000000#64 result = some ([0#64], [⟨0xE4, 3, 2, 1⟩]) := by decide

/-- V-L: CREATE 2 after a successful init. -/
theorem test_create :
    sees (fresh 65535 .initOk) 0x1000000200000000#64 (fun t => (t.responses, t.life, t.requests)) =
      some ([0#64], .ready, [.init .initOk]) ∧
    sees (fresh 65535 .initOk) 0x1000000200000000#64 (fun t => (t.numLeds, t.footerLen, t.ftr, t.pix)) =
      some (some 2, some 1, [0xFF#8], [⟨0xFF, 0, 0, 0⟩, ⟨0xFF, 0, 0, 0⟩]) := by decide
/-- V-L: CREATE 301 with MAXLEDS = 300; CREATE 0 with a failing transport reports the transport's error and makes no
teardown; CREATE 0 is rolled back. -/
theorem test_create_errors :
    sees (fresh 300 .initOk) 0x1000012D00000000#64 (fun t => (t.responses, t.life, t.requests)) =
      some ([0x1000030000000000#64], .uninitialized, [.init .initOk, .teardown]) ∧
    sees (fresh 300 (.initError 7)) 0x1000000000000000#64 (fun t => (t.responses, t.life, t.requests)) =
      some ([0x1000020700000000#64], .uninitialized, [.init (.initError 7)]) ∧
    sees (fresh 300 .initOk) 0x1000000000000000#64 (fun t => (t.responses, t.life, t.requests)) =
      some ([0x1000010000000000#64], .uninitialized, [.init .initOk, .teardown]) := by decide
/-- V-L: SHOW with IoError(0x05) hands over the bytes and changes no pixel. -/
theorem test_show_io_error : sees strip1 0x3000000000000000#64 (fun t => (t.responses, t.life, t.requests.tail)) =
    some ([0x2000000500000000#64], .ready, [.write [0, 0, 0, 0] [0xE4, 3, 2, 1] [0xFF] (.ioError 5)]) := by decide
/-- R293: a write that is never answered gives no response. -/
theorem test_show_hangs : sees (strip 1 [⟨0xE4, 3, 2, 1⟩] .silent) 0x3000000000000000#64 (fun t => (t.responses, t.waiting)) =
    some ([], true) := by decide
/-- V-L step 5. -/
theorem test_destroy : sees strip1 0x2000000000000000#64 (fun t => (t.responses, t.life, t.numLeds, t.requests)) =
    some ([0#64], .destroyed, none, [.init .initOk, .teardown]) := by decide
/-- V-L step 6: a second DESTROY; the run is marked (93 U2). -/
theorem test_destroy_twice : sees gone 0x2000000000000000#64 (fun t => (t.responses, t.requests.length, t.faulted)) =
    some ([0x3000000000000000#64], 2, true) := by decide
/-- V-L, priority of checks: an illegal word with DESTROY's operation code does not destroy, and does not mark the run. -/
theorem test_illegal_first : sees strip1 0x2FFF000000000000#64 (fun t => (t.responses, t.life, t.faulted)) =
    some ([0x4000000000000000#64], .ready, false) := by decide
theorem test_idle_keeps_state : step State.reset = .next State.reset := rfl

/-- The host's probe: a placed word is the first command after reset. -/
theorem test_placed_word_runs_first :
    step (State.reset.withFetchWord 64 0x1000000100000000) = exec (.create 1) State.reset := rfl

/-! ## The pixel byte space -/

theorem test_mem_read : memRead three 4 4 = some [0xE8, 7, 6, 5] := by decide
theorem test_mem_read_outside : memRead three 10 4 = none := by decide
theorem test_mem_write : memWrite three 3 [0xAA, 0xE0] = [⟨0xE4, 3, 2, 0xAA⟩, ⟨0xE0, 7, 6, 5⟩, ⟨0xEC, 0x0B, 0x0A, 9⟩] := by decide

/-! ## Witnesses: for every statement with hypotheses, a state and operands that meet them -/

theorem strip3_sized : strip3.Sized 3 :=
  ⟨rfl, by decide, by decide, rfl, rfl, rfl, by decide⟩
theorem strip3_inv : strip3.Inv := ⟨rfl, fun _ => ⟨3, strip3_sized⟩, fun h => absurd rfl h⟩
theorem strip1_inv : strip1.Inv :=
  ⟨rfl, fun _ => ⟨1, rfl, by decide, by decide, rfl, rfl, rfl, by decide⟩, fun h => absurd rfl h⟩
theorem fresh_inv (m : Index) (a : InitAnswer) : (fresh m a).Inv :=
  ⟨rfl, fun h => (by cases h), fun _ => ⟨rfl, rfl, rfl, rfl⟩⟩
theorem gone_inv : gone.Inv := ⟨rfl, fun h => (by cases h), fun _ => ⟨rfl, rfl, rfl, rfl⟩⟩
theorem strip3_transport : strip3.TransportInv :=
  ⟨fun _ h => (by cases h), fun _ _ => ⟨[], [], .none, by simp, rfl⟩, fun _ h => (by cases h), fun h => (by cases h)⟩

/-- A state whose host issues the word next. -/
def issuing (s : State) (w : Word) : State := { s with cmds := [w] }

theorem witness_DecodeAndEncodeAgree : decode 0x600000010A141EFF#64 = .instr (.setc 1 10 20 30) ∧
    Field.br ∉ (Instr.setc 1 10 20 30).mnemonic.format.fields := by decide
theorem witness_UnusedFieldsAreIgnored : decode 0xE00012345678ABCD#64 = .instr .rotl ∧
    0xE000000000000000#64 &&& Format.usedMask .Z = 0xE00012345678ABCD#64 &&& Format.usedMask .Z ∧
    strip3.waiting = false ∧ Field.idx ∉ Format.fields .Z := by decide
theorem witness_MatchAndMaskSelectTheCommand : opField 0x0000000300000000#64 = 0 ∧
    0xF000000000000000#64 &&& 0xFFFF000000000000#64 = BitVec.ofNat 64 0xF <<< 60 := by decide
theorem witness_IllegalWordIsAnsweredFirst :
    (gone.waiting = false ∧ (issuing gone 0x4100000000000000#64).cmds = [0x4100000000000000#64] ∧
      rsvField 0x4100000000000000#64 ≠ 0) ∧
    (strip3.waiting = false ∧ (issuing strip3 0#64).cmds = [0#64] ∧ opField 0#64 = 0) := by decide
theorem witness_StepRunsTheDecodedCommand :
    ((issuing strip3 0x8000000000000000#64).waiting = false ∧ (issuing strip3 0x8000000000000000#64).cmds = [0x8000000000000000#64] ∧
      decode 0x8000000000000000#64 = .instr .clear) ∧ State.reset.cmds = [] ∧ strip3.hang.waiting = true := by decide
theorem witness_ResponseFieldsReadBack :
    responseWord .ioError .none 5 0 = responseWord .ioError .none 5 0 := rfl
theorem witness_ResponsesStayWellFormed : (∀ w ∈ strip3.responses, GoodResponse w) ∧
    ∃ t, step (issuing strip3 0x4000000200000000#64) = .next t ∧ t.responses = [0x00000000090A0B0C#64] :=
  ⟨by simp [strip3, strip, State.boot], _, rfl, by decide⟩
theorem witness_OneResponsePerCommand :
    (∃ t, step (issuing strip3 0x8000000000000000#64) = .next t ∧ t.waiting = false) ∧
    ∃ t, step (issuing (strip 1 [⟨0xE4, 3, 2, 1⟩] .silent) 0x3000000000000000#64) = .next t ∧ t.waiting = true :=
  ⟨⟨_, rfl, rfl⟩, _, rfl, rfl⟩
/-- A record of each kind: tagged, at the boundary 0xDF below the tag, and one of a Ready state. -/
theorem witness_CodecRoundTrips : (0xE0#8).extractLsb' 5 3 = 0b111#3 ∧ (0xDF#8).extractLsb' 5 3 ≠ 0b111#3 ∧
    strip3.life = .ready ∧ (⟨0xE8, 7, 6, 5⟩ : Pixel) ∈ strip3.pix := by decide
/-- Every hypothesis of the statements about a Ready state with three pixels, at index 2, the last, and at 3 and 65535, the
first and the last out of range (FrameFollowsItsLayout, GetReadsOnePixel, SetcbStoresOneRecord, SetcKeepsBrightness,
SetbKeepsColour, PerPixelLaws, PushfShiftsTowardTheBack, PushbShiftsTowardTheFront, RotlMovesTheFrontToTheBack,
RotrMovesTheBackToTheFront, RotationLaws, DelegationLaws, FillcKeepsEachBrightness, FillbKeepsEachColour,
ClearSwitchesEveryPixelOff, FillcbStoresOneRecordEverywhere). -/
theorem witness_ReadyStrip : strip3.Inv ∧ strip3.life = .ready ∧ strip3.numLeds = some 3 ∧
    (2 : Index).toNat < (3 : Index).toNat ∧ (3 : Index).toNat ≤ (3 : Index).toNat ∧ (3 : Index).toNat ≤ (65535 : Index).toNat :=
  ⟨strip3_inv, rfl, rfl, by decide, by decide, by decide⟩
/-- A strip of one pixel, where every loop of the shifts is empty. -/
theorem witness_OnePixelStrip : strip1.Inv ∧ strip1.life = .ready ∧ strip1.numLeds = some 1 := ⟨strip1_inv, rfl, rfl⟩
/-- The encoding clause of every command: an operation code with `rsv = 0`. -/
theorem witness_EncodingClauses : ∀ op ∈ [0x1, 0x2, 0x3, 0x4, 0x5, 0x6, 0x7, 0x8, 0x9, 0xA, 0xB, 0xC, 0xD, 0xE, 0xF],
    opField (BitVec.ofNat 64 op <<< 60) = BitVec.ofNat 4 op ∧ rsvField (BitVec.ofNat 64 op <<< 60) = 0 := by decide
theorem witness_PixelByteSpaceIsTheStore : 8 + 4 ≤ 4 * three.length ∧ 11 + [0xAA#8].length ≤ 4 * three.length ∧
    three[2]? = some ⟨0xEC, 0x0B, 0x0A, 9⟩ ∧ 2 < three.length := by decide
theorem witness_PerPixelFrame : strip3.Inv ∧ (∃ t, exec (.setcb 1 9 9 9 9) strip3 = .next t) ∧
    (∃ t, exec (.setcb 1 9 9 9 9) gone = .next t) ∧ gone.Inv ∧ 3 < effectiveAddr 1 ∧ effectiveAddr 1 + 4 ≤ 8 :=
  ⟨strip3_inv, ⟨_, rfl⟩, ⟨_, rfl⟩, gone_inv, by decide, by decide⟩
theorem witness_LanesMayRunInAnyOrder : strip3.Inv ∧ strip3.life = .ready ∧
    [2, 0, 1].Perm (List.range strip3.pix.length) ∧ gone.Inv ∧ gone.life ≠ .ready :=
  ⟨strip3_inv, rfl, by decide, gone_inv, by decide⟩
theorem witness_PushesReplaceTheStrip : strip3.Inv ∧ strip3.life = .ready ∧ strip3.numLeds = some 3 ∧
    [Colour.mk 1 2 3 4, ⟨5, 6, 7, 8⟩, ⟨9, 9, 9, 255⟩].length = (3 : Index).toNat := ⟨strip3_inv, rfl, rfl, by decide⟩
/-- One state for each clause, at the boundaries `n = 0`, `n = 1`, `n = MAXLEDS` and `n = MAXLEDS + 1`. -/
theorem witness_CreateFollowsItsRule :
    ((fresh 300 (.initError 0)).life = .uninitialized ∧ (fresh 300 (.initError 0)).initDraws.head = .initError 0) ∧
    ((fresh 300 .initOk).life = .uninitialized ∧ (fresh 300 .initOk).initDraws.head = .initOk) ∧
    (0 : Index).toNat = 0 ∧ (301 : Index).toNat ≠ 0 ∧ (fresh 300 .initOk).cfg.maxLeds.toNat < (301 : Index).toNat ∧
    1 ≤ (1 : Index).toNat ∧ (300 : Index).toNat ≤ (fresh 300 .initOk).cfg.maxLeds.toNat ∧ strip3.life ≠ .uninitialized := by decide
theorem witness_FreshStripIsOff : (fresh 300 .initOk).Inv ∧ (fresh 300 .initOk).life = .uninitialized ∧
    (fresh 300 .initOk).initDraws.head = .initOk ∧ 1 ≤ (300 : Index).toNat ∧
    (300 : Index).toNat ≤ (fresh 300 .initOk).cfg.maxLeds.toNat ∧ (299 : Index).toNat < (300 : Index).toNat :=
  ⟨fresh_inv _ _, rfl, rfl, by decide, by decide, by decide⟩
theorem witness_ShowHandsOverTheFrame :
    (strip3.Inv ∧ strip3.life = .ready ∧ strip3.numLeds = some 3 ∧ strip3.writeDraws.head = .writeOk) ∧
    (strip1.Inv ∧ strip1.life = .ready ∧ strip1.numLeds = some 1 ∧ strip1.writeDraws.head = .ioError 5) ∧ gone.life ≠ .ready :=
  ⟨⟨strip3_inv, rfl, rfl, rfl⟩, ⟨strip1_inv, rfl, rfl, rfl⟩, by decide⟩
theorem witness_ShowRemembersNothing : strip1.Inv ∧ strip1.life = .ready ∧
    ∃ t u, exec .showStrip strip1 = .next t ∧ exec .showStrip t = .next u := ⟨strip1_inv, rfl, _, _, rfl, rfl⟩
theorem witness_DestroyReleasesEverything : strip3.life = .ready ∧ gone.life ≠ .ready := by decide
theorem witness_ValidityFollowsTheTable : validIn .destroy (fresh 300 .initOk).life = false ∧ validIn (.create 1) strip3.life = false ∧
    validIn .showStrip gone.life = false ∧ validIn .showStrip strip3.life = true ∧ ∃ t, exec .showStrip strip3 = .next t :=
  ⟨by decide, by decide, by decide, by decide, _, rfl⟩
/-- The three ways LIFE may go: it stays, CREATE succeeds, DESTROY. -/
theorem witness_LifeMovesOnlyByCreateAndDestroy :
    (∃ t, step (issuing strip3 0x8000000000000000#64) = .next t ∧ t.life = .ready) ∧
    (∃ t, step (issuing (fresh 300 .initOk) 0x1000000100000000#64) = .next t ∧ t.life = .ready) ∧
    ∃ t, step (issuing strip3 0x2000000000000000#64) = .next t ∧ t.life = .destroyed := ⟨⟨_, rfl, rfl⟩, ⟨_, rfl, rfl⟩, _, rfl, rfl⟩
theorem witness_DestroyedIsTerminal : (issuing gone 0x3000000000000000#64).life = .destroyed ∧
    ∃ t, Reach (issuing gone 0x3000000000000000#64) t ∧ t.responses = [0x3000000000000000#64] :=
  ⟨rfl, _, .tail _ _ .refl rfl, rfl⟩
theorem witness_ErrorsChangeNothing : ∃ t, step (issuing strip1 0x3000000000000000#64) = .next t ∧
    t.responses = strip1.responses ++ [0x2000000500000000#64] ∧ statusField 0x2000000500000000#64 ≠ 0 :=
  ⟨_, rfl, by decide, by decide⟩
theorem witness_StepKeepsTheInvariant : strip3.Inv ∧ (∃ t, step (issuing strip3 0xE000000000000000#64) = .next t) ∧
    (fresh 300 .initOk).Inv ∧ gone.Inv := ⟨strip3_inv, ⟨_, rfl⟩, fresh_inv _ _, gone_inv⟩
theorem witness_NoStepFaults : strip3.Inv ∧ strip1.Inv ∧ (fresh 300 .silent).Inv ∧ gone.Inv :=
  ⟨strip3_inv, strip1_inv, fresh_inv _ _, gone_inv⟩
theorem witness_StepKeepsTheTransportInvariant : strip3.TransportInv ∧
    ∃ t, step (issuing strip3 0x3000000000000000#64) = .next t ∧ t.requests.length = 2 := ⟨strip3_transport, _, rfl, rfl⟩
/-- A run from reset with a CREATE, and one that hangs in its CREATE. -/
theorem witness_RequestsOfARunHaveTheirShape :
    (∃ t, Reachable t ∧ t.waiting = false ∧ t.requests = [.init .initOk]) ∧ ∃ t, Reachable t ∧ t.waiting = true :=
  ⟨⟨_, ⟨⟨300⟩, [0x1000000100000000#64], ⟨[], .initOk⟩, ⟨[], .writeOk⟩, .tail _ _ .refl rfl⟩, rfl, rfl⟩,
    _, ⟨⟨300⟩, [0x1000000100000000#64], ⟨[], .silent⟩, ⟨[], .writeOk⟩, .tail _ _ .refl rfl⟩, rfl⟩
theorem witness_NoWriteWithoutShow : (∃ t, Reach (issuing strip3 0x2000000000000000#64) t ∧ t.requests.length = 2) ∧
    ∀ w ∈ (issuing strip3 0x2000000000000000#64).cmds, decode w ≠ .instr .showStrip :=
  ⟨⟨_, .tail _ _ .refl rfl, rfl⟩, by simp only [issuing, List.mem_singleton, forall_eq]; decide⟩
theorem witness_OnlyThreeCommandsTouchTheTransport : (∃ t, exec .rotl strip3 = .next t) ∧ (∃ t, exec .showStrip strip3 = .next t) ∧
    (∃ t, exec .destroy strip3 = .next t) ∧ ∃ t, exec (.create 0) (fresh 300 .initOk) = .next t := ⟨⟨_, rfl⟩, ⟨_, rfl⟩, ⟨_, rfl⟩, _, rfl⟩
theorem witness_UnansweredRequestHangsTheRun :
    ((strip 3 three .silent).Inv ∧ (strip 3 three .silent).life = .ready ∧ (strip 3 three .silent).writeDraws.head = .silent) ∧
    (fresh 300 .silent).life = .uninitialized ∧ (fresh 300 .silent).initDraws.head = .silent :=
  ⟨⟨⟨rfl, fun _ => ⟨3, rfl, by decide, by decide, rfl, rfl, rfl, by decide⟩, fun h => absurd rfl h⟩, rfl, rfl⟩, rfl, rfl⟩
/-- A marked run stays marked; a misuse marks; the response and the mark come together. -/
theorem witness_MisuseIsMarkedForEver :
    (∃ t, step (issuing gone.markFaulted 0x8000000000000000#64) = .next t ∧ gone.markFaulted.faulted = true) ∧
    ∃ t, step (issuing gone 0x8000000000000000#64) = .next t ∧ gone.faulted = false ∧ t.faulted = true ∧
      t.responses = gone.responses ++ [0x3000000000000000#64] := ⟨⟨_, rfl, rfl⟩, _, rfl, rfl, rfl, by decide⟩
theorem witness_ReadsAndRepeatedWritesAreIdempotent : (∃ t, exec (.get 1) strip3 = .next t) ∧
    ∃ t u, exec (.setb 2 255) strip3 = .next t ∧ exec (.setb 2 255) t = .next u := ⟨⟨_, rfl⟩, _, _, rfl, rfl⟩
theorem witness_HistoryIsNeverRead : ∃ t, exec .showStrip strip1 = .next t ∧ t.requests ≠ strip1.requests :=
  ⟨_, rfl, by decide⟩
theorem witness_SizeIsFixedWhileReady : ∃ t, step (issuing strip3 0xC000000009080706#64) = .next t ∧
    (issuing strip3 0xC000000009080706#64).life = .ready ∧ t.life = .ready ∧ strip3.Inv := ⟨_, rfl, rfl, rfl, strip3_inv⟩
theorem witness_InstancesShareNothing : ∃ a b, 0 ≠ 1 ∧
    System.stepAt [issuing (fresh 300 .initOk) 0x1000000100000000#64, issuing gone 0x3000000000000000#64] 0 = .next a ∧
    System.stepAt a 1 = .next b := ⟨_, _, by decide, stepAt_next rfl rfl, stepAt_next rfl rfl⟩
theorem witness_AssemblerRefusesExactlyIllFormedLines :
    assemble (AsmLine.mk .SETCB [65535, 0, 255, 0, 255]) = some 0x5000FFFF00FF00FF#64 ∧ assemble (AsmLine.mk .GET [65536]) = none := by decide

end Sys2Proof.Tests
end

/-! # The state's family: what a command and a step keep (10_state.md)

First the rules on the unchanged block and on the three lifecycle commands, then one inversion of every command (`Effect`), from
which the statements on the invariant, the sizes, the transport and the terminal state follow. The last two parts are the
per-pixel frame, byte by byte, and the independence of the recorded history. -/

namespace Sys2Proof.Machine

section Unchanged
variable {s t u : State}

/-! ## The unchanged block -/

/-- The six items, MAXLEDS and the recorded requests are as before: only the host's commands, the responses and the marks of
the run may differ. -/
structure Quiet (s t : State) : Prop extends SameBlock s t where
  cfg : t.cfg = s.cfg
  requests : t.requests = s.requests

theorem SameBlock.trans (h : SameBlock s t) (h' : SameBlock t u) : SameBlock s u where
  life := h'.life.trans h.life
  numLeds := h'.numLeds.trans h.numLeds
  footerLen := h'.footerLen.trans h.footerLen
  pix := h'.pix.trans h.pix
  hdr := h'.hdr.trans h.hdr
  ftr := h'.ftr.trans h.ftr

theorem Quiet.refl (s : State) : Quiet s s := ⟨⟨rfl, rfl, rfl, rfl, rfl, rfl⟩, rfl, rfl⟩

theorem Quiet.trans (h : Quiet s t) (h' : Quiet t u) : Quiet s u :=
  ⟨h.toSameBlock.trans h'.toSameBlock, h'.cfg.trans h.cfg, h'.requests.trans h.requests⟩

theorem quiet_takeCommand (s : State) : Quiet s s.takeCommand := ⟨⟨rfl, rfl, rfl, rfl, rfl, rfl⟩, rfl, rfl⟩
theorem quiet_illegalCommand (s : State) : Quiet s (illegalCommand s) := ⟨⟨rfl, rfl, rfl, rfl, rfl, rfl⟩, rfl, rfl⟩
theorem quiet_lifecycleError (s : State) : Quiet s (lifecycleError s) := ⟨⟨rfl, rfl, rfl, rfl, rfl, rfl⟩, rfl, rfl⟩
theorem sameBlock_respondOk (data : BitVec 32) (s : State) : SameBlock s (respondOk data s) :=
  ⟨rfl, rfl, rfl, rfl, rfl, rfl⟩

/-! ## The invariant under the moves of the state -/

/-- The invariant speaks of the six items and MAXLEDS only. -/
theorem State.Inv.of_sameBlock (h : s.Inv) (hb : SameBlock s t) (hc : t.cfg = s.cfg) : t.Inv where
  hdr := hb.hdr.trans h.hdr
  sized hr := by
    obtain ⟨n, hn⟩ := h.sized (hb.life.symm.trans hr)
    exact ⟨n, {
      numLeds := hb.numLeds.trans hn.numLeds
      positive := hn.positive
      capacity := hc ▸ hn.capacity
      footerLen := hb.footerLen.trans hn.footerLen
      ftr := hb.ftr.trans hn.ftr
      length := hb.pix ▸ hn.length
      legal := hb.pix ▸ hn.legal }⟩
  unsized hr := by
    have hu := h.unsized (hb.life ▸ hr)
    exact ⟨hb.numLeds.trans hu.numLeds, hb.footerLen.trans hu.footerLen, hb.pix.trans hu.pix, hb.ftr.trans hu.ftr⟩

theorem State.Inv.of_quiet (h : s.Inv) (hq : Quiet s t) : t.Inv := h.of_sameBlock hq.toSameBlock hq.cfg

/-- Ready stays sized when its records are replaced by as many legal ones. -/
theorem State.Sized.setPix {n : Index} {records : List Pixel} (h : s.Sized n) (hl : records.length = n.toNat)
    (hp : ∀ p ∈ records, p.legal = true) : (s.setPix records).Sized n :=
  { h with length := hl, legal := hp }

/-- CREATE's sizing (R213): every count between 1 and MAXLEDS gives a strip whose items agree. -/
theorem State.Inv.sizeStrip {n : Index} (h : s.Inv) (hpos : 1 ≤ n.toNat) (hcap : n.toNat ≤ s.cfg.maxLeds.toNat) :
    (s.sizeStrip n).Inv where
  hdr := h.hdr
  sized _ := ⟨n, rfl, hpos, hcap, rfl, rfl, List.length_replicate, fun p hp => by
    rw [List.eq_of_mem_replicate hp]; exact Pixel.legal_off⟩
  unsized hr := absurd rfl hr

/-- DESTROY's release (R35): no sized item holds a value. -/
theorem State.Inv.releaseStrip (h : s.Inv) : s.releaseStrip.Inv where
  hdr := h.hdr
  sized hr := by cases hr
  unsized _ := ⟨rfl, rfl, rfl, rfl⟩

/-! ## SHOW and CREATE after the transport's answer -/

theorem sameBlock_afterWrite (a : WriteAnswer) (s : State) : SameBlock s (afterWrite a s) := by
  cases a <;> exact ⟨rfl, rfl, rfl, rfl, rfl, rfl⟩

theorem sameBlock_show (a : WriteAnswer) (h p f : List Byte) (s : State) :
    SameBlock s (afterWrite a (requestWrite h p f s)) :=
  .trans (t := requestWrite h p f s) ⟨rfl, rfl, rfl, rfl, rfl, rfl⟩ (sameBlock_afterWrite a _)

@[simp] theorem afterWrite_cfg (a : WriteAnswer) (s : State) : (afterWrite a s).cfg = s.cfg := by cases a <;> rfl
@[simp] theorem afterWrite_requests (a : WriteAnswer) (s : State) : (afterWrite a s).requests = s.requests := by
  cases a <;> rfl

/-- The two tests of CREATE: the strip is sized, or nothing but the rollback happens (R211, R212). -/
theorem buildStrip_cases (n : Index) (s : State) :
    (1 ≤ n.toNat ∧ n.toNat ≤ s.cfg.maxLeds.toNat ∧ buildStrip n s = respondOk 0 (s.sizeStrip n)) ∨
    ∃ sub, buildStrip n s = respond .constructionError sub 0 0 (requestTeardown s) := by
  unfold buildStrip
  split
  · exact .inr ⟨_, rfl⟩
  · split
    · exact .inr ⟨_, rfl⟩
    · exact .inl ⟨by omega, by omega, rfl⟩

/-- CREATE after the answer to `T.init()`: it succeeds, or it leaves the block as it is and makes no request but the
teardown of a rollback (R211, R212, R250). -/
theorem afterInit_cases (n : Index) (a : InitAnswer) (s : State) :
    (1 ≤ n.toNat ∧ n.toNat ≤ s.cfg.maxLeds.toNat ∧ afterInit n a s = respondOk 0 (s.sizeStrip n)) ∨
    (SameBlock s (afterInit n a s) ∧ (afterInit n a s).cfg = s.cfg ∧
      ((afterInit n a s).requests = s.requests ∨
        a = .initOk ∧ (afterInit n a s).requests = s.requests ++ [.teardown])) := by
  cases a with
  | initOk =>
    rcases buildStrip_cases n s with h | ⟨sub, h⟩
    · exact .inl h
    · rw [show afterInit n .initOk s = _ from h]
      exact .inr ⟨⟨rfl, rfl, rfl, rfl, rfl, rfl⟩, rfl, .inr ⟨rfl, rfl⟩⟩
  | initError e => exact .inr ⟨⟨rfl, rfl, rfl, rfl, rfl, rfl⟩, rfl, .inl rfl⟩
  | silent => exact .inr ⟨⟨rfl, rfl, rfl, rfl, rfl, rfl⟩, rfl, .inl rfl⟩

end Unchanged

section Commands
variable {s t : State} {i : Instr}

/-! ## Every command, inverted -/

/-- What a command that goes on has done: it was not valid and is answered LIFECYCLE_ERROR (R218), it acted on the pixel store, or
it is one of the three that touch the transport (R36). -/
inductive Effect (s : State) : Instr → State → Prop where
  | refused (i : Instr) : validIn i s.life = false → Effect s i (lifecycleError s)
  | pixels (i : Instr) (t : State) : actsOnPixels i = true → PixelEffect s t → Effect s i t
  | shown : s.life = .ready →
      Effect s .showStrip (afterWrite s.writeDraws.head (requestWrite s.hdr.toList (pixBytesOf s.pix) s.ftr s))
  | destroyed : s.life = .ready → Effect s .destroy (respondOk 0 (requestTeardown s).releaseStrip)
  | created (n : Index) : s.life = .uninitialized →
      Effect s (.create n) (afterInit n s.initDraws.head (requestInit s))

theorem validIn_of_not_ready {l : Life} (hi : i.mnemonic ≠ .CREATE) (hl : l ≠ .ready) : validIn i l = false := by
  cases l with
  | uninitialized => simpa [validIn] using hi
  | ready => exact absurd rfl hl
  | destroyed => rfl

theorem validIn_create_of_initialized {n : Index} {l : Life} (hl : l ≠ .uninitialized) :
    validIn (.create n) l = false := by
  cases l with
  | uninitialized => exact absurd rfl hl
  | ready => rfl
  | destroyed => rfl

theorem actsOnPixels_iff :
    actsOnPixels i = true ↔ i.mnemonic ≠ .CREATE ∧ i.mnemonic ≠ .SHOW ∧ i.mnemonic ≠ .DESTROY := by
  cases i <;> simp [actsOnPixels, Instr.mnemonic]

theorem effect_of_pixels (hi : actsOnPixels i = true) (h : exec i s = .next t) : Effect s i t := by
  rcases exec_pixels_next hi h with he | ⟨hr, rfl⟩
  · exact .pixels i t hi he
  · exact .refused i (validIn_of_not_ready (actsOnPixels_iff.mp hi).1 hr)

theorem exec_effect (h : exec i s = .next t) : Effect s i t := by
  cases hi : actsOnPixels i with
  | true => exact effect_of_pixels hi h
  | false =>
    cases i <;> simp only [actsOnPixels, reduceCtorEq] at hi
    case create n =>
      rcases exec_create_next h with ⟨hl, rfl⟩ | ⟨hl, rfl⟩
      · exact .created n hl
      · exact .refused _ (validIn_create_of_initialized hl)
    case destroy =>
      rcases exec_destroy_next h with ⟨hl, rfl⟩ | ⟨hl, rfl⟩
      · exact .destroyed hl
      · exact .refused _ (validIn_of_not_ready (by decide) hl)
    case showStrip =>
      rcases exec_show_next h with ⟨hl, rfl⟩ | ⟨hl, rfl⟩
      · exact .shown hl
      · exact .refused _ (validIn_of_not_ready (by decide) hl)

/-- A step takes no command or answers an illegal word, which leaves the block, or it runs a command. -/
theorem step_effect (h : step s = .next t) : Quiet s t ∨ ∃ i, Effect s.takeCommand i t := by
  rcases step_next h with ⟨rfl, -⟩ | ⟨w, rest, -, -, ⟨why, -, rfl⟩ | ⟨i, -, hi⟩⟩
  · exact .inl (.refl _)
  · exact .inl ((quiet_takeCommand s).trans (quiet_illegalCommand _))
  · exact .inr ⟨i, exec_effect hi⟩

/-! ## The invariant -/

theorem PixelEffect.keeps_inv (h : PixelEffect s t) (hs : s.Inv) : t.Inv := by
  obtain ⟨hr, records, data, rfl, hl, hp⟩ := h
  obtain ⟨n, hn⟩ := hs.sized hr
  have hn' : (s.setPix records).Sized n := hn.setPix (hl n hn.numLeds hn.length) (hp hn.legal)
  have hset : (s.setPix records).Inv := ⟨hs.hdr, fun _ => ⟨n, hn'⟩, fun h => absurd hr h⟩
  exact hset.of_sameBlock (sameBlock_respondOk data _) rfl

theorem Effect.keeps_inv (h : Effect s i t) (hs : s.Inv) : t.Inv := by
  cases h with
  | refused _ _ => exact hs.of_quiet (quiet_lifecycleError s)
  | pixels _ _ _ he => exact he.keeps_inv hs
  | shown _ => exact hs.of_sameBlock (sameBlock_show ..) (afterWrite_cfg ..)
  | destroyed _ =>
    have hreq : (requestTeardown s).Inv := hs.of_sameBlock ⟨rfl, rfl, rfl, rfl, rfl, rfl⟩ rfl
    exact hreq.releaseStrip.of_sameBlock (sameBlock_respondOk 0 _) rfl
  | created n _ =>
    have hreq : (requestInit s).Inv := hs.of_sameBlock ⟨rfl, rfl, rfl, rfl, rfl, rfl⟩ rfl
    rcases afterInit_cases n s.initDraws.head (requestInit s) with ⟨hpos, hcap, ht⟩ | ⟨hb, hc, -⟩
    · rw [ht]
      exact (hreq.sizeStrip hpos hcap).of_sameBlock (sameBlock_respondOk 0 _) rfl
    · exact hreq.of_sameBlock hb hc

theorem step_keeps_inv (hs : s.Inv) (h : step s = .next t) : t.Inv := by
  rcases step_effect h with hq | ⟨i, he⟩
  · exact hs.of_quiet hq
  · exact he.keeps_inv (hs.of_quiet (quiet_takeCommand s))

/-! ## Sizes -/

theorem Effect.hdr_cfg (h : Effect s i t) : t.hdr = s.hdr ∧ t.cfg = s.cfg := by
  cases h with
  | refused _ _ => exact ⟨rfl, rfl⟩
  | pixels _ _ _ he => obtain ⟨-, records, data, rfl, -⟩ := he; exact ⟨rfl, rfl⟩
  | shown _ => exact ⟨(sameBlock_show _ _ _ _ s).hdr, afterWrite_cfg ..⟩
  | destroyed _ => exact ⟨rfl, rfl⟩
  | created n _ =>
    rcases afterInit_cases n s.initDraws.head (requestInit s) with ⟨-, -, ht⟩ | ⟨hb, hc, -⟩
    · rw [ht]; exact ⟨rfl, rfl⟩
    · exact ⟨hb.hdr, hc⟩

/-- A command that stays in Ready keeps the six items, or acts on the pixel store alone. -/
theorem Effect.within_ready (h : Effect s i t) (hs : s.life = .ready) (ht : t.life = .ready) :
    SameBlock s t ∨ PixelEffect s t := by
  cases h with
  | refused _ _ => exact .inl (quiet_lifecycleError s).toSameBlock
  | pixels _ _ _ he => exact .inr he
  | shown _ => exact .inl (sameBlock_show ..)
  | destroyed _ => cases ht
  | created n hl => simp [hs] at hl

theorem step_hdr_cfg (h : step s = .next t) : t.hdr = s.hdr ∧ t.cfg = s.cfg := by
  rcases step_effect h with hq | ⟨i, he⟩
  · exact ⟨hq.hdr, hq.cfg⟩
  · exact he.hdr_cfg

theorem step_within_ready (h : step s = .next t) (hs : s.life = .ready) (ht : t.life = .ready) :
    SameBlock s t ∨ PixelEffect s.takeCommand t := by
  rcases step_effect h with hq | ⟨i, he⟩
  · exact .inl hq.toSameBlock
  · exact (he.within_ready hs ht).imp_left (quiet_takeCommand s).toSameBlock.trans

theorem PixelEffect.keeps_sizes (h : PixelEffect s t) :
    t.numLeds = s.numLeds ∧ t.footerLen = s.footerLen ∧ t.ftr = s.ftr := by
  obtain ⟨-, records, data, rfl, -⟩ := h
  exact ⟨rfl, rfl, rfl⟩

theorem PixelEffect.keeps_length (h : PixelEffect s t) (hs : s.Inv) : t.pix.length = s.pix.length := by
  obtain ⟨hr, records, data, rfl, hl, -⟩ := h
  obtain ⟨n, hn⟩ := hs.sized hr
  exact (hl n hn.numLeds hn.length).trans hn.length.symm

/-! ## Destroyed -/

theorem Effect.of_destroyed (h : Effect s i t) (hs : s.life = .destroyed) : t = lifecycleError s := by
  cases h with
  | refused _ _ => rfl
  | pixels _ _ _ he => have := he.ready; simp [hs] at this
  | shown hl => simp [hs] at hl
  | destroyed hl => simp [hs] at hl
  | created n hl => simp [hs] at hl

theorem step_of_destroyed (h : step s = .next t) (hs : s.life = .destroyed) : Quiet s t := by
  rcases step_effect h with hq | ⟨i, he⟩
  · exact hq
  · rw [he.of_destroyed hs]
    exact (quiet_takeCommand s).trans (quiet_lifecycleError _)

theorem reach_of_destroyed (h : Reach s t) (hs : s.life = .destroyed) : Quiet s t := by
  induction h with
  | refl => exact .refl s
  | tail t u _ hstep ih => exact ih.trans (step_of_destroyed hstep (ih.life.trans hs))

/-! ## Every command goes on -/

theorem whenReady_goes_on {k : Out} (h : s.life = .ready → ∃ t, k = .next t) : ∃ t, whenReady s k = .next t := by
  by_cases hr : s.life = .ready
  · rw [whenReady_of_ready hr]; exact h hr
  · exact ⟨_, whenReady_of_not_ready hr⟩

/-- The check and the first read that every command on a Ready block begins with. -/
theorem whenReady_withCount_goes_on (hs : s.Inv) {k : Index → Out} (h : ∀ n, s.Sized n → ∃ t, k n = .next t) :
    ∃ t, whenReady s (withCount s k) = .next t := by
  refine whenReady_goes_on fun hr => ?_
  obtain ⟨n, hn⟩ := hs.sized hr
  rw [withCount_eq hn.numLeds]
  exact h n hn

section Sized
variable {n : Index} (hn : s.Sized n)
include hn

theorem State.Sized.withStrip_goes_on {k : List Pixel → Out} (h : ∃ t, k s.pix = .next t) :
    ∃ t, withStrip s n k = .next t := by
  rwa [withStrip_eq hn.length]

theorem State.Sized.withRecord_goes_on {j : Nat} {k : Pixel → State} (hj : j < n.toNat) :
    ∃ t, (withRecord s j fun p => .next (k p)) = .next t := by
  obtain ⟨p, hp⟩ := hn.record hj
  exact ⟨_, withRecord_eq hp⟩

/-- A record is read only after its index has passed the bounds test (R58). -/
theorem State.Sized.inRange_goes_on {idx : Index} {k : Pixel → State} {u : State} :
    ∃ t, (if inRange idx n then withRecord s (effectivePixel idx) fun p => .next (k p) else .next u) = .next t := by
  by_cases hi : inRange idx n = true
  · rw [if_pos hi]
    exact hn.withRecord_goes_on (of_decide_eq_true hi)
  · exact ⟨u, if_neg hi⟩

end Sized

theorem exec_goes_on (hs : s.Inv) (i : Instr) : ∃ t, exec i s = .next t := by
  cases i with
  | create n => exact ⟨_, rfl⟩
  | destroy => exact whenReady_goes_on fun _ => ⟨_, rfl⟩
  | showStrip =>
    refine whenReady_withCount_goes_on hs fun n hn => hn.withStrip_goes_on ?_
    rw [withFooterLen_eq hn.footerLen, withFooter_eq hn.ftr]
    exact ⟨_, rfl⟩
  | get idx => exact whenReady_withCount_goes_on hs fun n hn => hn.inRange_goes_on
  | setcb idx r g b br =>
    refine whenReady_withCount_goes_on hs fun n hn => ?_
    split <;> exact ⟨_, rfl⟩
  | setc idx r g b => exact whenReady_withCount_goes_on hs fun n hn => hn.inRange_goes_on
  | setb idx br => exact whenReady_withCount_goes_on hs fun n hn => hn.inRange_goes_on
  | clear => exact whenReady_withCount_goes_on hs fun n hn => ⟨_, rfl⟩
  | fillcb r g b br => exact whenReady_withCount_goes_on hs fun n hn => ⟨_, rfl⟩
  | fillc r g b => exact whenReady_withCount_goes_on hs fun n hn => hn.withStrip_goes_on ⟨_, rfl⟩
  | fillb br => exact whenReady_withCount_goes_on hs fun n hn => hn.withStrip_goes_on ⟨_, rfl⟩
  | pushf r g b br => exact whenReady_withCount_goes_on hs fun n hn => hn.withStrip_goes_on ⟨_, rfl⟩
  | pushb r g b br => exact whenReady_withCount_goes_on hs fun n hn => hn.withStrip_goes_on ⟨_, rfl⟩
  | rotl =>
    exact whenReady_withCount_goes_on hs fun n hn => hn.withStrip_goes_on <|
      hn.withRecord_goes_on hn.positive
  | rotr =>
    exact whenReady_withCount_goes_on hs fun n hn => hn.withStrip_goes_on <|
      hn.withRecord_goes_on (Nat.sub_one_lt_of_lt hn.positive)

theorem step_goes_on (hs : s.Inv) : ∃ t, step s = .next t := by
  unfold step
  cases presented s with
  | nothing => exact ⟨_, rfl⟩
  | illegal why => exact ⟨_, rfl⟩
  | command i => exact exec_goes_on (hs.of_quiet (quiet_takeCommand s)) i

/-! ## The transport -/

/-- A command on the pixel store, valid or not, leaves the transport alone (R36). -/
theorem exec_pixels_transport (hi : actsOnPixels i = true) (h : exec i s = .next t) :
    t.requests = s.requests ∧ t.initDraws = s.initDraws ∧ t.writeDraws = s.writeDraws ∧ t.waiting = s.waiting := by
  rcases exec_pixels_next hi h with ⟨-, records, data, rfl, -⟩ | ⟨-, rfl⟩
  · exact ⟨rfl, rfl, rfl, rfl⟩
  · exact ⟨rfl, rfl, rfl, rfl⟩

theorem exec_show_requests (h : exec .showStrip s = .next t) :
    t.requests = s.requests ∨ ∃ h p f a, t.requests = s.requests ++ [.write h p f a] := by
  rcases exec_show_next h with ⟨-, rfl⟩ | ⟨-, rfl⟩
  · exact .inr ⟨_, _, _, _, afterWrite_requests ..⟩
  · exact .inl rfl

theorem exec_destroy_requests (h : exec .destroy s = .next t) :
    t.requests = s.requests ∨ t.requests = s.requests ++ [.teardown] := by
  rcases exec_destroy_next h with ⟨-, rfl⟩ | ⟨-, rfl⟩
  · exact .inr rfl
  · exact .inl rfl

theorem exec_create_requests {n : Index} (h : exec (.create n) s = .next t) :
    t.requests = s.requests ∨ (∃ a, t.requests = s.requests ++ [.init a]) ∨
      t.requests = s.requests ++ [.init .initOk, .teardown] := by
  rcases exec_create_next h with ⟨-, rfl⟩ | ⟨-, rfl⟩
  · right
    rcases afterInit_cases n s.initDraws.head (requestInit s) with ⟨-, -, ht⟩ | ⟨-, -, hq | ⟨ha, hq⟩⟩
    · exact .inl ⟨_, congrArg State.requests ht⟩
    · exact .inl ⟨_, hq⟩
    · right; rw [hq]; simp [ha]
  · exact .inl rfl

end Commands

/-! ## The recorded history -/

section History

/-- The state with these responses and requests recorded before its own. -/
def State.withPast (rs : List Word) (qs : List Request) (s : State) : State :=
  { s with responses := rs ++ s.responses, requests := qs ++ s.requests }

/-- The state with nothing recorded. -/
def State.forget (s : State) : State := { s with responses := [], requests := [] }

/-- An outcome with its next state, if it has one, replaced by a function of itself. -/
def mapNext (f : State → State) (o : Out) : Out :=
  match o with
  | .next t => .next (f t)
  | .fault r => .fault r
  | .refused r => .refused r

@[simp] theorem mapNext_next (f : State → State) (t : State) : mapNext f (.next t) = .next (f t) := rfl

theorem mapNext_eq_next {f : State → State} {o : Out} {t : State} (h : mapNext f o = .next t) :
    ∃ u, o = .next u ∧ t = f u := by
  cases o <;> simp [mapNext] at h
  exact ⟨_, rfl, h.symm⟩

variable (rs : List Word) (qs : List Request) (s : State)

theorem forget_withPast : s.forget.withPast rs qs = { s with responses := rs, requests := qs } := by
  simp [State.withPast, State.forget]

/-! Nothing but the history is changed by `withPast`. -/

@[simp] theorem withPast_life : (s.withPast rs qs).life = s.life := rfl
@[simp] theorem withPast_pix : (s.withPast rs qs).pix = s.pix := rfl
@[simp] theorem withPast_hdr : (s.withPast rs qs).hdr = s.hdr := rfl
@[simp] theorem withPast_cfg : (s.withPast rs qs).cfg = s.cfg := rfl
@[simp] theorem withPast_initDraws : (s.withPast rs qs).initDraws = s.initDraws := rfl
@[simp] theorem withPast_writeDraws : (s.withPast rs qs).writeDraws = s.writeDraws := rfl

/-! Every operation on the state commutes with `withPast`: what it records is recorded at the end. -/

@[simp] theorem respond_withPast (st : Status) (sub : SubCause) (e : Byte) (d : BitVec 32) :
    respond st sub e d (s.withPast rs qs) = (respond st sub e d s).withPast rs qs := by
  simp [respond, State.giveResponse, State.withPast]

@[simp] theorem respondOk_withPast (d : BitVec 32) :
    respondOk d (s.withPast rs qs) = (respondOk d s).withPast rs qs := respond_withPast ..

@[simp] theorem lifecycleError_withPast : lifecycleError (s.withPast rs qs) = (lifecycleError s).withPast rs qs :=
  respond_withPast rs qs s.markFaulted ..

@[simp] theorem setPix_withPast (records : List Pixel) :
    (s.withPast rs qs).setPix records = (s.setPix records).withPast rs qs := rfl
@[simp] theorem sizeStrip_withPast (n : Index) :
    (s.withPast rs qs).sizeStrip n = (s.sizeStrip n).withPast rs qs := rfl
@[simp] theorem releaseStrip_withPast : (s.withPast rs qs).releaseStrip = s.releaseStrip.withPast rs qs := rfl
@[simp] theorem hang_withPast : (s.withPast rs qs).hang = s.hang.withPast rs qs := rfl

@[simp] theorem logRequest_withPast (q : Request) :
    (s.withPast rs qs).logRequest q = (s.logRequest q).withPast rs qs := by
  simp [State.logRequest, State.withPast]

@[simp] theorem requestTeardown_withPast : requestTeardown (s.withPast rs qs) = (requestTeardown s).withPast rs qs :=
  logRequest_withPast ..

@[simp] theorem requestInit_withPast : requestInit (s.withPast rs qs) = (requestInit s).withPast rs qs :=
  congrArg State.takeInitAnswer (logRequest_withPast rs qs s _)

@[simp] theorem requestWrite_withPast (h p f : List Byte) :
    requestWrite h p f (s.withPast rs qs) = (requestWrite h p f s).withPast rs qs :=
  congrArg State.takeWriteAnswer (logRequest_withPast rs qs s _)

@[simp] theorem buildStrip_withPast (n : Index) :
    buildStrip n (s.withPast rs qs) = (buildStrip n s).withPast rs qs := by
  simp only [buildStrip, withPast_cfg, requestTeardown_withPast, respond_withPast, sizeStrip_withPast, respondOk_withPast]
  split_ifs <;> rfl

@[simp] theorem afterInit_withPast (n : Index) (a : InitAnswer) :
    afterInit n a (s.withPast rs qs) = (afterInit n a s).withPast rs qs := by
  cases a with
  | initOk => exact buildStrip_withPast ..
  | initError e => exact respond_withPast ..
  | silent => exact hang_withPast ..

@[simp] theorem afterWrite_withPast (a : WriteAnswer) :
    afterWrite a (s.withPast rs qs) = (afterWrite a s).withPast rs qs := by
  cases a with
  | writeOk => exact respond_withPast ..
  | ioError e => exact respond_withPast ..
  | silent => exact hang_withPast ..

@[simp] theorem createState_withPast (n : Index) :
    createState n (s.withPast rs qs) = (createState n s).withPast rs qs := by
  unfold createState
  cases h : s.life <;> simp [h]

/-! A check or a read goes the same way with another history. -/

@[simp] theorem mapNext_whenReady (k : Out) :
    mapNext (State.withPast rs qs) (whenReady s k) = whenReady (s.withPast rs qs) (mapNext (State.withPast rs qs) k) := by
  unfold whenReady
  cases h : s.life <;> simp [h]

@[simp] theorem mapNext_withCount (k : Index → Out) :
    mapNext (State.withPast rs qs) (withCount s k) =
      withCount (s.withPast rs qs) fun n => mapNext (State.withPast rs qs) (k n) := by
  cases h : s.numLeds <;> simp [withCount, State.withPast, mapNext, h]

@[simp] theorem mapNext_withFooterLen (k : BitVec 13 → Out) :
    mapNext (State.withPast rs qs) (withFooterLen s k) =
      withFooterLen (s.withPast rs qs) fun n => mapNext (State.withPast rs qs) (k n) := by
  cases h : s.footerLen <;> simp [withFooterLen, State.withPast, mapNext, h]

@[simp] theorem mapNext_withRecord (j : Nat) (k : Pixel → Out) :
    mapNext (State.withPast rs qs) (withRecord s j k) =
      withRecord (s.withPast rs qs) j fun p => mapNext (State.withPast rs qs) (k p) := by
  cases h : s.pix[j]? <;> simp [withRecord, State.withPast, mapNext, h]

@[simp] theorem mapNext_withStrip (n : Index) (k : List Pixel → Out) :
    mapNext (State.withPast rs qs) (withStrip s n k) =
      withStrip (s.withPast rs qs) n fun records => mapNext (State.withPast rs qs) (k records) := by
  by_cases h : s.pix.length = n.toNat <;> simp [withStrip, State.withPast, mapNext, h]

@[simp] theorem mapNext_withFooter (f : BitVec 13) (k : List Byte → Out) :
    mapNext (State.withPast rs qs) (withFooter s f k) =
      withFooter (s.withPast rs qs) f fun footer => mapNext (State.withPast rs qs) (k footer) := by
  by_cases h : s.ftr.length = f.toNat <;> simp [withFooter, State.withPast, mapNext, h]

/-- A command does the same whatever was recorded before it, and records the same entries after it: each meaning is put
together from checks, reads and operations that commute with `withPast`. -/
theorem exec_withPast (i : Instr) :
    exec i (s.withPast rs qs) = mapNext (State.withPast rs qs) (exec i s) := by
  cases i <;>
    simp [exec, execCreate, execDestroy, execShow, execGet, execSetcb, execSetc, execSetb, execClear, execFillcb, execFillc,
      execFillb, execPushf, execPushb, execRotl, execRotr, apply_ite (mapNext (State.withPast rs qs))]

end History

/-! ## The per-pixel frame -/

section Bytes
variable {records : List Pixel} {i a : Nat} {p q : Pixel}

theorem readByte_writeRecord_outside (ha : a < 4 * i ∨ 4 * i + 4 ≤ a) :
    readByte (writeRecord i q records) a = readByte records a := by
  have hne : i ≠ a / 4 := by omega
  simp [readByte, writeRecord, List.getElem?_set_ne hne]

/-- A byte in which the new record agrees with the old one reads as before. -/
theorem readByte_writeRecord_of_byteAt (hp : records[i]? = some p) (h : a / 4 = i → q.byteAt (a % 4) = p.byteAt (a % 4)) :
    readByte (writeRecord i q records) a = readByte records a := by
  by_cases ha : a / 4 = i
  · obtain ⟨hi, hget⟩ := List.getElem?_eq_some_iff.mp hp
    simp [readByte, writeRecord, ha, hi, hget, h ha]
  · exact readByte_writeRecord_outside (by omega)

theorem byteAt_rebright (br : Byte) {k : Nat} (hk : k % 4 ≠ 0) : (rebright br p).byteAt k = p.byteAt k := by
  have : k % 4 = 1 ∨ k % 4 = 2 ∨ k % 4 = 3 := by omega
  rcases this with h | h | h <;> simp [Pixel.byteAt, h, rebright, pack, unpack]

/-- The five low bits are never above 31, so they are not clamped (R111, R113). -/
theorem clamp5_brightness (p : Pixel) : clamp5 (unpack p).brightness = p.byte0.setWidth 5 := by
  have hle : ((unpack p).brightness).toNat ≤ 31 := by
    rw [unpack, BitVec.toNat_and]; exact Nat.and_le_right
  rw [clamp5, if_neg (by omega)]
  apply BitVec.eq_of_getLsbD_eq
  intro j hj
  interval_cases j <;> simp [unpack]

/-- A legal record recoloured keeps its brightness byte: its tag is there already (R114, R133). -/
theorem byte0_recolour (r g b : Byte) (hp : p.legal = true) : (recolour r g b p).byte0 = p.byte0 := by
  rw [recolour, pack, clamp5_brightness]
  rw [Pixel.legal, beq_iff_eq] at hp
  apply BitVec.eq_of_getLsbD_eq
  intro j hj
  have htag := congrArg (·.getLsbD (j - 5)) hp
  by_cases hlow : j < 5
  · interval_cases j <;> simp
  · interval_cases j <;> simpa using htag.symm

end Bytes

section Frame
variable {s t : State} {i : Instr} {idx : Index}

/-- Only the store, the responses and the mark of a misused run may change, and the mark not in Ready (R36). -/
theorem exec_pixels_frame (hi : actsOnPixels i = true) (h : exec i s = .next t) :
    t = { s with pix := t.pix, responses := t.responses, faulted := t.faulted } ∧
    (s.life = .ready → t.faulted = s.faulted) := by
  rcases exec_pixels_next hi h with ⟨-, records, data, rfl, -⟩ | ⟨hr, rfl⟩
  · exact ⟨rfl, fun _ => rfl⟩
  · exact ⟨rfl, fun hl => absurd hl hr⟩

theorem exec_get_pix (h : exec (.get idx) s = .next t) : t.pix = s.pix := by
  simp only [exec, execGet, whenReady_next, withCount_next] at h
  rcases h with ⟨-, n, -, h⟩ | ⟨-, rfl⟩
  · split at h
    · obtain ⟨p, -, h⟩ := withRecord_next.mp h
      cases h; rfl
    · cases h; rfl
  · rfl

/-- The store after a setter: as it was, or with the record at the index replaced by `f` of itself. -/
def SetsRecord (idx : Index) (f : Pixel → Pixel) (s t : State) : Prop :=
  t.pix = s.pix ∨ ∃ p, s.pix[effectivePixel idx]? = some p ∧ t.pix = writeRecord (effectivePixel idx) (f p) s.pix

/-- SETC and SETB have one body: both read the record and write it back. -/
theorem setsRecord_of_update {f : Pixel → Pixel}
    (h : (whenReady s <| withCount s fun n =>
      if inRange idx n then
        withRecord s (effectivePixel idx) fun p =>
          .next (respondOk 0 (s.setPix (writeRecord (effectivePixel idx) (f p) s.pix)))
      else .next (respondOk 0 s)) = .next t) : SetsRecord idx f s t := by
  simp only [whenReady_next, withCount_next] at h
  rcases h with ⟨-, n, -, h⟩ | ⟨-, rfl⟩
  · split at h
    · obtain ⟨p, hp, h⟩ := withRecord_next.mp h
      cases h; exact .inr ⟨p, hp, rfl⟩
    · cases h; exact .inl rfl
  · exact .inl rfl

theorem exec_setc_record {r g b : Byte} (h : exec (.setc idx r g b) s = .next t) :
    SetsRecord idx (recolour r g b) s t := setsRecord_of_update h

theorem exec_setb_record {br : Byte} (h : exec (.setb idx br) s = .next t) : SetsRecord idx (rebright br) s t :=
  setsRecord_of_update h

/-- SETCB does not read the record; the invariant says that it is there. -/
theorem exec_setcb_record {r g b br : Byte} (hs : s.Inv) (h : exec (.setcb idx r g b br) s = .next t) :
    SetsRecord idx (fun _ => pack r g b br) s t := by
  simp only [exec, execSetcb, whenReady_next, withCount_next] at h
  rcases h with ⟨hr, n, hn, h⟩ | ⟨-, rfl⟩
  · split at h
    · next hi =>
      obtain ⟨p, hp⟩ := (hs.count_unique hr hn).record (of_decide_eq_true hi)
      cases h; exact .inr ⟨p, hp, rfl⟩
    · cases h; exact .inl rfl
  · exact .inl rfl

/-- A setter leaves every byte that the new record has in common with the old one, and every byte of another record. -/
theorem SetsRecord.byte_kept {f : Pixel → Pixel} (h : SetsRecord idx f s t) {a : Nat}
    (hf : ∀ p ∈ s.pix, a / 4 = effectivePixel idx → (f p).byteAt (a % 4) = p.byteAt (a % 4)) :
    readByte t.pix a = readByte s.pix a := by
  rcases h with h | ⟨p, hp, h⟩
  · rw [h]
  · rw [h]
    exact readByte_writeRecord_of_byteAt hp (hf p (List.mem_of_getElem? hp))

theorem SetsRecord.byte_kept_outside {f : Pixel → Pixel} (h : SetsRecord idx f s t) {a : Nat}
    (ha : a < effectiveAddr idx ∨ effectiveAddr idx + 4 ≤ a) : readByte t.pix a = readByte s.pix a :=
  h.byte_kept fun _ _ he => by simp only [effectiveAddr] at ha; omega

/-- Every record of a state that meets the invariant is legal: outside Ready there is none. -/
theorem State.Inv.legal (hs : s.Inv) : ∀ p ∈ s.pix, p.legal = true := by
  by_cases hr : s.life = .ready
  · obtain ⟨n, hn⟩ := hs.sized hr
    exact hn.legal
  · simp [(hs.unsized hr).pix]

theorem exec_setc_readByte_effectiveAddr {r g b : Byte} (hs : s.Inv) (h : exec (.setc idx r g b) s = .next t) :
    readByte t.pix (effectiveAddr idx) = readByte s.pix (effectiveAddr idx) :=
  (exec_setc_record h).byte_kept fun p hp _ => by
    simpa [effectiveAddr, Pixel.byteAt] using byte0_recolour r g b (hs.legal p hp)

theorem exec_setb_readByte_above {br : Byte} (h : exec (.setb idx br) s = .next t) {a : Nat}
    (ha : effectiveAddr idx < a) : readByte t.pix a = readByte s.pix a :=
  (exec_setb_record h).byte_kept fun p _ he => byteAt_rebright br (by simp only [effectiveAddr] at ha; omega)

end Frame

/-! # The statements -/

/-- Settles O43: `Effect` says what each command leaves, and each of its cases keeps the invariant. -/
theorem stepKeepsTheInvariant : Obligations.StepKeepsTheInvariant :=
  fun _ _ => step_keeps_inv

/-- Settles O20: SETC keeps byte 0 because the record is legal; SETB's record differs from the old one in byte 0 only. -/
theorem perPixelFrame : Obligations.PerPixelFrame := by
  intro s t idx r g b br hs
  refine ⟨fun i hi h => ?_, fun h a => by rw [exec_get_pix h], exec_setc_readByte_effectiveAddr hs,
    fun h a => exec_setb_readByte_above h⟩
  simp only [List.mem_cons, List.not_mem_nil, or_false] at hi
  have hpix : actsOnPixels i = true := by rcases hi with rfl | rfl | rfl | rfl <;> rfl
  obtain ⟨hframe, hmark⟩ := exec_pixels_frame hpix h
  refine ⟨hframe, hmark, fun a ha => ?_⟩
  rcases hi with rfl | rfl | rfl | rfl
  · rw [exec_get_pix h]
  · exact (exec_setcb_record hs h).byte_kept_outside ha
  · exact (exec_setc_record h).byte_kept_outside ha
  · exact (exec_setb_record h).byte_kept_outside ha

/-- Settles O41, by induction on the run: from Destroyed every command is answered LIFECYCLE_ERROR. -/
theorem destroyedIsTerminal : Obligations.DestroyedIsTerminal := by
  intro s t hs hreach
  have hq := reach_of_destroyed hreach hs
  exact ⟨hq.life.trans hs, hq.toSameBlock, hq.requests⟩

/-- Settles O45: in Ready the invariant gives every item that a command reads, and elsewhere no command reads one. -/
theorem noStepFaults : Obligations.NoStepFaults :=
  fun _ => step_goes_on

/-- Settles O49, by the inversion of each command. -/
theorem onlyThreeCommandsTouchTheTransport : Obligations.OnlyThreeCommandsTouchTheTransport := by
  intro i s t h
  refine ⟨fun hc hs hd => exec_pixels_transport (actsOnPixels_iff.mpr ⟨hc, hs, hd⟩) h, fun hi => ?_, fun hi => ?_, ?_⟩
  · cases i <;> simp only [Instr.mnemonic, reduceCtorEq] at hi
    exact exec_show_requests h
  · cases i <;> simp only [Instr.mnemonic, reduceCtorEq] at hi
    exact exec_destroy_requests h
  · rintro n rfl
    exact exec_create_requests h

/-- Settles O53: the command runs on the state with nothing recorded, and both histories are put before what it records. -/
theorem historyIsNeverRead : Obligations.HistoryIsNeverRead := by
  intro i s t rs qs h
  have hs : s.forget.withPast s.responses s.requests = s := forget_withPast ..
  rw [← hs, exec_withPast] at h
  obtain ⟨u, hu, rfl⟩ := mapNext_eq_next h
  refine ⟨u.responses, u.requests, rfl, rfl, ?_⟩
  rw [← forget_withPast, exec_withPast, hu]
  rfl

/-- Settles O54: a step from Ready to Ready keeps the six items or acts on the pixel store alone. -/
theorem sizeIsFixedWhileReady : Obligations.SizeIsFixedWhileReady := by
  intro s t h
  obtain ⟨hhdr, hcfg⟩ := step_hdr_cfg h
  refine ⟨hhdr, hcfg, fun hs ht => ?_⟩
  rcases step_within_ready h hs ht with hb | he
  · exact ⟨hb.numLeds, hb.footerLen, hb.ftr, fun _ => by rw [hb.pix]⟩
  · obtain ⟨hn, hf, hftr⟩ := he.keeps_sizes
    exact ⟨hn, hf, hftr, fun hinv => he.keeps_length (hinv.of_quiet (quiet_takeCommand s))⟩

end Sys2Proof.Machine


/-! # The memory's family: the pixel byte space, repeated writes, and what a run asks of the transport (20_memory.md)

First the byte space as a view of the store (R52), then the setters and fills as one function of the store each (R61), then the
commands of a run and the requests they make (R70), and last the step on a decoded word (R64). -/

namespace Sys2Proof.Machine

section ByteSpace
variable {p : Pixel} {records : List Pixel} {a n i k : Nat}

/-! ## The pixel byte space -/

@[simp] theorem length_writeByte (v : Byte) : (writeByte records a v).length = records.length := by simp [writeByte]

/-- A replaced byte reads back, and the three others read as before. -/
theorem Pixel.byteAt_setByteAt (p : Pixel) (j k : Nat) (v : Byte) :
    (p.setByteAt j v).byteAt k = if j % 4 = k % 4 then v else p.byteAt k := by
  have hj : j % 4 = 0 ∨ j % 4 = 1 ∨ j % 4 = 2 ∨ j % 4 = 3 := by omega
  have hk : k % 4 = 0 ∨ k % 4 = 1 ∨ k % 4 = 2 ∨ k % 4 = 3 := by omega
  rcases hj with hj | hj | hj | hj <;> rcases hk with hk | hk | hk | hk <;>
    simp [Pixel.setByteAt, Pixel.byteAt, hj, hk]

/-- PIXBYTES byte by byte: byte `a` is `PIX[a div 4][a mod 4]` (R52). -/
theorem getElem?_pixBytesOf (records : List Pixel) (a : Nat) : (pixBytesOf records)[a]? = readByte records a := by
  induction records generalizing a with
  | nil => simp [pixBytesOf, readByte]
  | cons p records ih =>
    match a with
    | 0 => rfl
    | 1 => rfl
    | 2 => rfl
    | 3 => rfl
    | a + 4 => simp [pixBytesOf_cons, ih, readByte]

/-- Every address below the size of the space holds its byte. -/
theorem readByte_of_lt (ha : a < (pixBytesOf records).length) : readByte records a = some (pixBytesOf records)[a] := by
  rw [← getElem?_pixBytesOf, List.getElem?_eq_getElem ha]

/-- A byte written to the store is that byte of PIXBYTES replaced, and no other (R52). -/
theorem pixBytesOf_writeByte (records : List Pixel) (a : Nat) (v : Byte) :
    pixBytesOf (writeByte records a v) = (pixBytesOf records).set a v := by
  refine List.ext_getElem? fun b => ?_
  rw [List.getElem?_set, getElem?_pixBytesOf, getElem?_pixBytesOf, length_pixBytesOf]
  by_cases hab : a = b
  · subst hab
    by_cases ha : a / 4 < records.length
    · have hlt : a < 4 * records.length := by omega
      simp [readByte, writeByte, Pixel.byteAt_setByteAt, ha, hlt]
    · have hle : ¬ a < 4 * records.length := by omega
      simp [readByte, writeByte, ha, hle]
  · have hbyte : a / 4 = b / 4 → a % 4 ≠ b % 4 := by omega
    rw [if_neg hab, readByte, writeByte, List.getElem?_modify]
    by_cases hrec : a / 4 = b / 4
    · simp [readByte, Pixel.byteAt_setByteAt, hrec, hbyte hrec, Function.comp_def]
    · simp [readByte, hrec]

theorem memRead_eq_slice (h : a + n ≤ 4 * records.length) :
    memRead records a n = some (((pixBytesOf records).drop a).take n) := by
  induction n generalizing a with
  | zero => simp [memRead]
  | succ n ih =>
    have ha : a < (pixBytesOf records).length := by simp; omega
    rw [memRead, readByte_of_lt ha, ih (by omega), List.drop_eq_getElem_cons ha, List.take_succ_cons]

theorem pixBytesOf_memWrite {v : List Byte} (h : a + v.length ≤ 4 * records.length) :
    pixBytesOf (memWrite records a v) = (pixBytesOf records).take a ++ v ++ (pixBytesOf records).drop (a + v.length) := by
  induction v generalizing records a with
  | nil => simp [memWrite]
  | cons b v ih =>
    rw [List.length_cons] at h
    have ha : a < (pixBytesOf records).length := by simp; omega
    have htake : ((pixBytesOf records).set a b).take (a + 1) = (pixBytesOf records).take a ++ [b] := by
      rw [List.take_add_one, List.take_set_of_le le_rfl, List.getElem?_set_self ha, Option.toList_some]
    have hend : a + (b :: v).length = a + 1 + v.length := by rw [List.length_cons]; omega
    rw [memWrite, ih (by simp; omega), pixBytesOf_writeByte, htake, List.drop_set_of_lt (by omega), hend]
    simp

/-! A record is the four bytes at `4*i`. -/

theorem readByte_record (hp : records[i]? = some p) (hk : k < 4) : readByte records (4 * i + k) = some (p.byteAt k) := by
  have hdiv : (4 * i + k) / 4 = i := by omega
  have hmod : (4 * i + k) % 4 = k := by omega
  simp [readByte, hdiv, hmod, hp]

theorem writeByte_record (hk : k < 4) (v : Byte) :
    writeByte records (4 * i + k) v = records.modify i fun q => q.setByteAt k v := by
  have hdiv : (4 * i + k) / 4 = i := by omega
  have hmod : (4 * i + k) % 4 = k := by omega
  simp [writeByte, hdiv, hmod]

theorem memRead_record (hp : records[i]? = some p) : memRead records (4 * i) 4 = some p.bytes := by
  have h0 : readByte records (4 * i) = some (p.byteAt 0) := readByte_record (k := 0) hp (by decide)
  simp (disch := decide) only [memRead, Nat.add_assoc, Nat.reduceAdd, h0, readByte_record hp]
  rfl

/-- Four bytes written one after the other leave nothing of the record that was there. -/
theorem memWrite_record (records : List Pixel) (i : Nat) (p : Pixel) :
    memWrite records (4 * i) p.bytes = records.set i p := by
  have h0 : writeByte records (4 * i) p.byte0 = records.modify i fun q => q.setByteAt 0 p.byte0 :=
    writeByte_record (k := 0) (by decide) _
  simp (disch := decide) only [Pixel.bytes, memWrite, Nat.add_assoc, Nat.reduceAdd, h0, writeByte_record,
    List.modify_modify_eq, List.set_eq_modify]
  rfl

end ByteSpace

section RepeatedWrites
variable {s t u : State}

/-! ## The same setter or fill, twice -/

/-- GET changes none of the six items: its frame leaves the store only, and it writes no record. -/
theorem exec_get_sameBlock {idx : Index} (h : exec (.get idx) s = .next t) : SameBlock s t := by
  obtain ⟨hframe, -⟩ := exec_pixels_frame (i := .get idx) rfl h
  rw [exec_get_pix h] at hframe
  rw [hframe]
  exact ⟨rfl, rfl, rfl, rfl, rfl, rfl⟩

theorem exec_show_sameBlock (h : exec .showStrip s = .next t) : SameBlock s t := by
  rcases exec_show_next h with ⟨-, rfl⟩ | ⟨-, rfl⟩
  · exact sameBlock_show ..
  · exact (quiet_lifecycleError s).toSameBlock

/-- The command puts the store `f n PIX` in the place of `PIX`, `n` the count, or is refused. -/
def AppliesToStore (f : Index → List Pixel → List Pixel) (s t : State) : Prop :=
  (s.life = .ready ∧ ∃ n, s.numLeds = some n ∧ t = respondOk 0 (s.setPix (f n s.pix))) ∨
  (s.life ≠ .ready ∧ t = lifecycleError s)

/-- Only the store can differ after the second time, and there `f` gives what it gave. -/
theorem AppliesToStore.again {f : Index → List Pixel → List Pixel} (ht : AppliesToStore f s t)
    (hu : AppliesToStore f t u) (hf : ∀ n records, f n (f n records) = f n records) : SameBlock t u := by
  rcases hu with ⟨hr, n, hn, rfl⟩ | ⟨-, rfl⟩
  · rcases ht with ⟨-, m, hm, rfl⟩ | ⟨hs, rfl⟩
    · obtain rfl : m = n := by simpa [hm] using hn
      exact ⟨rfl, rfl, rfl, hf m s.pix, rfl, rfl⟩
    · exact absurd hr hs
  · exact (quiet_lifecycleError t).toSameBlock

/-- The lifecycle check and the read of the count, with which all these commands begin. -/
theorem appliesToStore_of_count {f : Index → List Pixel → List Pixel} {k : Index → Out}
    (h : (whenReady s <| withCount s k) = .next t)
    (hk : ∀ n, k n = .next t → t = respondOk 0 (s.setPix (f n s.pix))) : AppliesToStore f s t := by
  rw [whenReady_next, withCount_next] at h
  exact h.imp_left fun ⟨hr, n, hn, h⟩ => ⟨hr, n, hn, hk n h⟩

/-- A setter on the store: the record at an index in range is replaced by `f` of itself (R58). -/
def updateRecord (idx : Index) (f : Pixel → Pixel) (n : Index) (records : List Pixel) : List Pixel :=
  if inRange idx n then records.modify (effectivePixel idx) f else records

theorem updateRecord_idem {idx : Index} {f : Pixel → Pixel} (hf : ∀ p, f (f p) = f p) (n : Index) (records : List Pixel) :
    updateRecord idx f n (updateRecord idx f n records) = updateRecord idx f n records := by
  unfold updateRecord
  split
  · rw [List.modify_modify_eq, show f ∘ f = f from funext hf]
  · rfl

theorem eachLane_idem {f : Pixel → Pixel} (hf : ∀ p, f (f p) = f p) (records : List Pixel) :
    eachLane f (eachLane f records) = eachLane f records := by
  rw [eachLane, eachLane, List.map_map, show f ∘ f = f from funext hf]

theorem writeRecord_eq_modify {i : Nat} {p : Pixel} {f : Pixel → Pixel} {records : List Pixel}
    (hp : records[i]? = some p) : writeRecord i (f p) records = records.modify i f := by
  simp [writeRecord, List.modify_eq_set_getElem?, hp]

/-- SETC and SETB: the record is read, then written. -/
theorem appliesToStore_of_readRecord {idx : Index} {f : Pixel → Pixel}
    (h : (whenReady s <| withCount s fun n =>
      if inRange idx n then
        withRecord s (effectivePixel idx) fun p =>
          .next (respondOk 0 (s.setPix (writeRecord (effectivePixel idx) (f p) s.pix)))
      else .next (respondOk 0 s)) = .next t) : AppliesToStore (updateRecord idx f) s t := by
  refine appliesToStore_of_count h fun n h => ?_
  unfold updateRecord
  split at h
  · next hi =>
    obtain ⟨p, hp, h⟩ := withRecord_next.mp h
    rw [writeRecord_eq_modify hp] at h
    rw [if_pos hi]; cases h; rfl
  · next hi => rw [if_neg hi]; cases h; rfl

/-- FILLC and FILLB: every record is read, then written. -/
theorem appliesToStore_of_lanes {f : Pixel → Pixel}
    (h : (whenReady s <| withCount s fun n => withStrip s n fun records =>
      .next (respondOk 0 (s.setPix (eachLane f records)))) = .next t) : AppliesToStore (fun _ => eachLane f) s t :=
  appliesToStore_of_count h fun _ h => by cases (withStrip_next.mp h).2; rfl

/-- CLEAR and FILLCB: no record is read. -/
theorem appliesToStore_of_replicate {p : Pixel}
    (h : (whenReady s <| withCount s fun n => .next (respondOk 0 (s.setPix (List.replicate n.toNat p)))) = .next t) :
    AppliesToStore (fun n _ => List.replicate n.toNat p) s t :=
  appliesToStore_of_count h fun _ h => by cases h; rfl

theorem exec_setcb_appliesToStore {idx : Index} {r g b br : Byte} (h : exec (.setcb idx r g b br) s = .next t) :
    AppliesToStore (updateRecord idx fun _ => pack r g b br) s t := by
  refine appliesToStore_of_count h fun n h => ?_
  unfold updateRecord
  split at h
  · next hi => rw [if_pos hi, ← List.set_eq_modify]; cases h; rfl
  · next hi => rw [if_neg hi]; cases h; rfl

/-- The brightness a packed record gives back is clamped already (R111). -/
theorem clamp5_brightness_pack (r g b br : Byte) : clamp5 (unpack (pack r g b br)).brightness = clamp5 br := by
  rw [clamp5_brightness, pack]
  apply BitVec.eq_of_getLsbD_eq
  intro j hj
  interval_cases j <;> simp

theorem recolour_idem (r g b : Byte) (p : Pixel) : recolour r g b (recolour r g b p) = recolour r g b p := by
  rw [recolour, recolour, pack, clamp5_brightness_pack, ← pack]

theorem rebright_idem (br : Byte) (p : Pixel) : rebright br (rebright br p) = rebright br p := rfl

end RepeatedWrites

section Run
variable {s t u : State} {i : Instr}

/-! ## The commands of a run and their requests -/

@[simp] theorem afterWrite_cmds (a : WriteAnswer) (s : State) : (afterWrite a s).cmds = s.cmds := by cases a <;> rfl

@[simp] theorem buildStrip_cmds (n : Index) (s : State) : (buildStrip n s).cmds = s.cmds := by
  rcases buildStrip_cases n s with ⟨-, -, h⟩ | ⟨sub, h⟩
  · rw [h]; rfl
  · rw [h]; rfl

@[simp] theorem afterInit_cmds (n : Index) (a : InitAnswer) (s : State) : (afterInit n a s).cmds = s.cmds := by
  cases a with
  | initOk => exact buildStrip_cmds n s
  | initError e => rfl
  | silent => rfl

/-- A command takes no further word from the host. -/
theorem Effect.keeps_cmds (h : Effect s i t) : t.cmds = s.cmds := by
  cases h with
  | refused _ _ => rfl
  | pixels _ _ _ he => obtain ⟨-, records, data, rfl, -⟩ := he; rfl
  | shown _ => exact afterWrite_cmds ..
  | destroyed _ => rfl
  | created n _ => exact afterInit_cmds ..

/-- A step takes the host's next word or none (R64). -/
theorem step_cmds (h : step s = .next t) : t.cmds = s.cmds ∨ t.cmds = s.cmds.tail := by
  rcases step_next h with ⟨rfl, -⟩ | ⟨w, rest, -, -, ⟨why, -, rfl⟩ | ⟨i, -, hi⟩⟩
  · exact .inl rfl
  · exact .inr rfl
  · exact .inr (exec_effect hi).keeps_cmds

/-- The words still to come in a run are words the host had at its start. -/
theorem reach_cmds_subset (h : Reach s t) : t.cmds ⊆ s.cmds := by
  induction h with
  | refl => exact List.Subset.refl _
  | tail t u _ hstep ih =>
    rcases step_cmds hstep with hc | hc
    · rwa [hc]
    · rw [hc]; exact List.Subset.trans (List.tail_subset _) ih

/-- The requests recorded in `t` are those of `s` and then others, none of them a write. -/
def AddsNoWrite (s t : State) : Prop :=
  ∃ new, t.requests = s.requests ++ new ∧ ∀ q ∈ new, q.isWrite = false

theorem addsNoWrite_of_eq (h : t.requests = s.requests) : AddsNoWrite s t := ⟨[], by simpa using h, by simp⟩

theorem AddsNoWrite.trans (h : AddsNoWrite s t) (h' : AddsNoWrite t u) : AddsNoWrite s u := by
  obtain ⟨new, hnew, hw⟩ := h
  obtain ⟨new', hnew', hw'⟩ := h'
  refine ⟨new ++ new', by rw [hnew', hnew, List.append_assoc], fun q hq => ?_⟩
  exact (List.mem_append.mp hq).elim (hw q) (hw' q)

/-- SHOW is the only command that writes (R36). -/
theorem exec_addsNoWrite (hi : i ≠ .showStrip) (h : exec i s = .next t) : AddsNoWrite s t := by
  cases hpix : actsOnPixels i with
  | true => exact addsNoWrite_of_eq (exec_pixels_transport hpix h).1
  | false =>
    cases i <;> simp only [actsOnPixels, reduceCtorEq] at hpix
    case create n =>
      rcases exec_create_requests h with hq | ⟨a, hq⟩ | hq
      · exact addsNoWrite_of_eq hq
      · exact ⟨_, hq, by simp [Request.isWrite]⟩
      · exact ⟨_, hq, by simp [Request.isWrite]⟩
    case destroy =>
      rcases exec_destroy_requests h with hq | hq
      · exact addsNoWrite_of_eq hq
      · exact ⟨_, hq, by simp [Request.isWrite]⟩
    case showStrip => exact absurd rfl hi

theorem step_addsNoWrite (hs : ∀ w ∈ s.cmds, decode w ≠ .instr .showStrip) (h : step s = .next t) : AddsNoWrite s t := by
  rcases step_next h with ⟨rfl, -⟩ | ⟨w, rest, -, hc, ⟨why, -, rfl⟩ | ⟨i, hd, hi⟩⟩
  · exact addsNoWrite_of_eq rfl
  · exact addsNoWrite_of_eq rfl
  · refine exec_addsNoWrite (s := s.takeCommand) ?_ hi
    rintro rfl
    exact hs w (by simp [hc]) hd

/-! ## The step on a decoded word -/

/-- The step on a word that spells a command (R64, R100). -/
theorem step_of_decode {w : Word} {rest : List Word} (hw : s.waiting = false) (hc : s.cmds = w :: rest)
    (hd : decode w = .instr i) : step s = exec i s.takeCommand := by
  rw [step, presented_word hw hc, presentedWord, hd]

/-- The decoder reads the canonical word of a command as that command: its fields read back what was put in (R90, R100). -/
theorem decode_encode (i : Instr) : decode (encode i) = .instr i := by
  cases i <;> simp [decode, decodeOp, encode, Instr.mnemonic, Mnemonic.opcode]

/-- A 64-bit word numbered as the opcode table numbers it is the word itself (log 9). -/
theorem tableWord_toNat (w : Word) : tableWord 64 w.toNat = w := by
  rw [tableWord, Nat.mod_eq_of_lt w.isLt, BitVec.ofNat_toNat, BitVec.setWidth_eq]

end Run

/-! # The statements of the memory's family -/

/-- Settles O14: byte `a` of PIXBYTES is the byte read at `a`, MemRead and MemWrite go byte after byte, and four bytes at `4*i`
make the record. -/
theorem pixelByteSpaceIsTheStore : Obligations.PixelByteSpaceIsTheStore :=
  fun records => ⟨length_pixBytesOf records, getElem?_pixBytesOf records, fun _ _ => memRead_eq_slice,
    fun _ _ => pixBytesOf_memWrite, fun _ _ => memRead_record, fun i p _ => memWrite_record records i p⟩

/-- Settles O48, by induction on the run: every word taken in it is one of the host's, so no SHOW. -/
theorem noWriteWithoutShow : Obligations.NoWriteWithoutShow := by
  intro s t hreach hs
  induction hreach with
  | refl => exact addsNoWrite_of_eq rfl
  | tail t u hst hstep ih => exact AddsNoWrite.trans ih (step_addsNoWrite (fun w hw => hs w (reach_cmds_subset hst hw)) hstep)

/-- Settles O52: each setter and fill puts a function of the store in the store's place, and each such function is idempotent. -/
theorem readsAndRepeatedWritesAreIdempotent : Obligations.ReadsAndRepeatedWritesAreIdempotent := by
  refine ⟨fun s t idx h => h.elim exec_get_sameBlock exec_show_sameBlock, fun s t u idx r g b br i hi ht hu => ?_⟩
  simp only [List.mem_cons, List.not_mem_nil, or_false] at hi
  rcases hi with rfl | rfl | rfl | rfl | rfl | rfl | rfl
  · exact (exec_setcb_appliesToStore ht).again (exec_setcb_appliesToStore hu) (updateRecord_idem fun _ => rfl)
  · exact (appliesToStore_of_readRecord ht).again (appliesToStore_of_readRecord hu) (updateRecord_idem (recolour_idem r g b))
  · exact (appliesToStore_of_readRecord ht).again (appliesToStore_of_readRecord hu) (updateRecord_idem (rebright_idem br))
  · exact (appliesToStore_of_replicate ht).again (appliesToStore_of_replicate hu) fun _ _ => rfl
  · exact (appliesToStore_of_replicate ht).again (appliesToStore_of_replicate hu) fun _ _ => rfl
  · exact (appliesToStore_of_lanes ht).again (appliesToStore_of_lanes hu) fun _ => eachLane_idem (recolour_idem r g b)
  · exact (appliesToStore_of_lanes ht).again (appliesToStore_of_lanes hu) fun _ => eachLane_idem (rebright_idem br)

/-- Settles O6: the port presents the decoded command, or nothing, and a placed word is the first on the list. -/
theorem stepRunsTheDecodedCommand : Obligations.StepRunsTheDecodedCommand := by
  refine ⟨fun s w rest i hw hc hd => ?_, fun s h => ?_, fun s i => ?_⟩
  · rw [step_of_decode hw hc hd, State.takeCommand, hc, List.tail_cons]
  · have hp : presented s = .nothing := h.elim presented_idle presented_waiting
    rw [step, hp]
  · rw [State.withFetchWord, tableWord_toNat]
    exact step_of_decode (s := placeWord (encode i) s) rfl rfl (decode_encode i)

end Sys2Proof.Machine


/-! # The encoding's family: command words, the assembler, response words, and the delegations (30_encoding.md)

`decode_iff` is the rule that the statements on command words follow from: a word spells a command exactly when the used bits
of the word are the command's canonical word. Every response reports one of the outcomes of `Reports`. The delegations are read
off the store that each command leaves in a Ready block. -/

namespace Sys2Proof.Machine

section CommandWords
variable {w : Word} {i : Instr}

/-! ## A command word is its fields -/

/-- The fields of R80 cover the word. -/
theorem word_ext {v w : Word} (hop : opField v = opField w) (hrsv : rsvField v = rsvField w)
    (hidx : idxField v = idxField w) (hr : rField v = rField w) (hg : gField v = gField w) (hb : bField v = bField w)
    (hbr : brField v = brField w) : v = w := by
  simp only [opField, rsvField, idxField, rField, gField, bField, brField, ← BitVec.toNat_inj, BitVec.extractLsb'_toNat,
    Nat.shiftRight_eq_div_pow] at *
  omega

/-- A field's value where the format uses the field, and zero where it does not (R86). -/
def keptIn (f : Format) (x : Field) {n : Nat} (v : BitVec n) : BitVec n := if x ∈ f.fields then v else 0

/-- The word with this operation code, the format's fields as in `w`, and zero elsewhere (R90). -/
def usedWord (op : BitVec 4) (f : Format) (w : Word) : Word :=
  commandWord op (keptIn f .idx (idxField w)) (keptIn f .r (rField w)) (keptIn f .g (gField w)) (keptIn f .b (bField w))
    (keptIn f .br (brField w))

theorem usedMask_fields (f : Format) :
    opField f.usedMask = .allOnes 4 ∧ rsvField f.usedMask = .allOnes 12 ∧
    idxField f.usedMask = keptIn f .idx (.allOnes 16) ∧ rField f.usedMask = keptIn f .r (.allOnes 8) ∧
    gField f.usedMask = keptIn f .g (.allOnes 8) ∧ bField f.usedMask = keptIn f .b (.allOnes 8) ∧
    brField f.usedMask = keptIn f .br (.allOnes 8) := by
  cases f <;> decide

@[simp] theorem opField_and_usedMask (w : Word) (f : Format) : opField (w &&& f.usedMask) = opField w := by
  obtain ⟨hop, -⟩ := usedMask_fields f
  rw [opField, BitVec.extractLsb'_and, ← opField, ← opField, hop, BitVec.and_allOnes]

@[simp] theorem rsvField_and_usedMask (w : Word) (f : Format) : rsvField (w &&& f.usedMask) = rsvField w := by
  obtain ⟨-, hrsv, -⟩ := usedMask_fields f
  rw [rsvField, BitVec.extractLsb'_and, ← rsvField, ← rsvField, hrsv, BitVec.and_allOnes]

/-- A mask that covers a field whole or not at all keeps the field or clears it. -/
theorem extractLsb'_and_of_keptIn {f : Format} {x : Field} {m : Word} {start len : Nat}
    (h : m.extractLsb' start len = keptIn f x (.allOnes len)) (w : Word) :
    (w &&& m).extractLsb' start len = keptIn f x (w.extractLsb' start len) := by
  rw [BitVec.extractLsb'_and, h]
  unfold keptIn
  split
  · exact BitVec.and_allOnes
  · exact BitVec.and_zero

/-- The used bits of a word without reserved bits are its canonical word (R86, R90). -/
theorem and_usedMask (hrsv : rsvField w = 0) (f : Format) : w &&& f.usedMask = usedWord (opField w) f w := by
  obtain ⟨-, -, hidx, hr, hg, hb, hbr⟩ := usedMask_fields f
  apply word_ext <;> simp only [usedWord, opField_commandWord, rsvField_commandWord, idxField_commandWord,
    rField_commandWord, gField_commandWord, bField_commandWord, brField_commandWord, opField_and_usedMask,
    rsvField_and_usedMask]
  · exact hrsv
  · exact extractLsb'_and_of_keptIn hidx w
  · exact extractLsb'_and_of_keptIn hr w
  · exact extractLsb'_and_of_keptIn hg w
  · exact extractLsb'_and_of_keptIn hb w
  · exact extractLsb'_and_of_keptIn hbr w

/-- Under the mask of R83 only `op` is left, once `rsv` is zero. -/
theorem and_opcodeMask_iff {op : BitVec 4} :
    w &&& opcodeMask = commandWord op 0 0 0 0 0 ↔ rsvField w = 0 ∧ opField w = op := by
  rw [show opcodeMask = Format.usedMask .Z from rfl]
  constructor
  · intro h
    exact ⟨by simpa using congrArg rsvField h, by simpa using congrArg opField h⟩
  · rintro ⟨hrsv, rfl⟩
    exact and_usedMask hrsv .Z

/-! ## The decoder -/

theorem decode_instr_iff : decode w = .instr i ↔ rsvField w = 0 ∧ decodeOp (opField w).toNat w = .instr i := by
  unfold decode
  split <;> simp_all

/-- Each arm of the decoder: the operation code is the command's, and the operands are the fields its format uses (R100). -/
theorem decodeOp_instr {op : BitVec 4} (h : decodeOp op.toNat w = .instr i) :
    op = i.mnemonic.opcode ∧ encode i = usedWord op i.mnemonic.format w := by
  have harm : op = i.mnemonic.opcode ∧ encode i = usedWord i.mnemonic.opcode i.mnemonic.format w := by
    unfold decodeOp at h
    split at h <;> rename_i hop <;> cases h <;> exact ⟨BitVec.eq_of_toNat_eq hop, rfl⟩
  obtain ⟨hop, henc⟩ := harm
  exact ⟨hop, by rw [hop, henc]⟩

theorem decodeOp_opcode (m : Mnemonic) (w : Word) : ∃ i, decodeOp m.opcode.toNat w = .instr i ∧ i.mnemonic = m := by
  cases m <;> exact ⟨_, rfl, rfl⟩

/-- Every operation code but 0 is some command's (R83). -/
theorem exists_opcode_eq {op : BitVec 4} (h : op ≠ 0) : ∃ m : Mnemonic, m.opcode = op := by
  have hmap : ∀ op : BitVec 4, op ≠ 0 → ∃ m ∈ [Mnemonic.CREATE, .DESTROY, .SHOW, .GET, .SETCB, .SETC, .SETB, .CLEAR,
      .FILLCB, .FILLC, .FILLB, .PUSHF, .PUSHB, .ROTL, .ROTR], m.opcode = op := by decide
  obtain ⟨m, -, hm⟩ := hmap op h
  exact ⟨m, hm⟩

theorem decodeOp_illegal_iff {op : BitVec 4} : (∃ why, decodeOp op.toNat w = .illegal why) ↔ op = 0 := by
  constructor
  · rintro ⟨why, h⟩
    by_contra hop
    obtain ⟨m, rfl⟩ := exists_opcode_eq hop
    obtain ⟨i, hi, -⟩ := decodeOp_opcode m w
    rw [hi] at h; cases h
  · rintro rfl
    exact ⟨_, rfl⟩

/-- A word is illegal exactly when `op` is 0 or `rsv` is not (R85). -/
theorem decode_illegal_iff : (∃ why, decode w = .illegal why) ↔ opField w = 0 ∨ rsvField w ≠ 0 := by
  by_cases hrsv : rsvField w = 0
  · rw [decode, if_neg (not_not.mpr hrsv), decodeOp_illegal_iff, or_iff_left (not_not.mpr hrsv)]
  · rw [decode, if_pos hrsv]
    exact ⟨fun _ => .inr hrsv, fun _ => ⟨_, rfl⟩⟩

/-- The command a word spells has the mnemonic of its operation code (R83). -/
theorem decode_mnemonic_iff {m : Mnemonic} :
    (∃ i, decode w = .instr i ∧ i.mnemonic = m) ↔ rsvField w = 0 ∧ opField w = m.opcode := by
  constructor
  · rintro ⟨i, hd, rfl⟩
    obtain ⟨hrsv, hd⟩ := decode_instr_iff.mp hd
    exact ⟨hrsv, (decodeOp_instr hd).1⟩
  · rintro ⟨hrsv, hop⟩
    obtain ⟨i, hi, hm⟩ := decodeOp_opcode m w
    exact ⟨i, decode_instr_iff.mpr ⟨hrsv, hop ▸ hi⟩, hm⟩

theorem encode_injective {i j : Instr} (h : encode i = encode j) : i = j := by
  simpa [decode_encode] using congrArg decode h

/-- The decoder reads a word as the command whose canonical word is the used bits of the word (R86, R90, R100). -/
theorem decode_iff : decode w = .instr i ↔ w &&& i.mnemonic.format.usedMask = encode i := by
  have hused : ∀ j, decode w = .instr j → w &&& j.mnemonic.format.usedMask = encode j := by
    intro j h
    obtain ⟨hrsv, h⟩ := decode_instr_iff.mp h
    rw [and_usedMask hrsv, (decodeOp_instr h).2]
  refine ⟨hused i, fun h => ?_⟩
  obtain ⟨hrsv, hop⟩ := decode_mnemonic_iff.mp ⟨i, decode_encode i, rfl⟩
  rw [← h, rsvField_and_usedMask] at hrsv
  rw [← h, opField_and_usedMask] at hop
  obtain ⟨j, hj, hm⟩ := decode_mnemonic_iff.mpr ⟨hrsv, hop⟩
  rw [hj, encode_injective ((hused j hj).symm.trans (hm ▸ h))]

/-! ## Unused fields -/

theorem usedMask_and_mask {f : Format} {x : Field} (hx : x ∉ f.fields) : f.usedMask &&& x.mask = 0 := by
  revert hx
  cases f <;> cases x <;> decide

/-- Every bit is used by the format or belongs to a field the format does not use (R80, R81). -/
theorem bit_used_or_unused (f : Format) (k : Fin 64) :
    f.usedMask.getLsbD k = true ∨ ∃ x, x ∉ f.fields ∧ x.mask.getLsbD k = true := by
  have h : ∀ k : Fin 64, f.usedMask.getLsbD k = true ∨
      ∃ x ∈ [Field.idx, .r, .g, .b, .br], x ∉ f.fields ∧ x.mask.getLsbD k = true := by
    cases f <;> decide
  exact (h k).imp_right fun ⟨x, _, hx⟩ => ⟨x, hx⟩

/-- A word is canonical for a format when its unused fields are zero (R86). -/
theorem and_usedMask_eq_self_iff {f : Format} :
    w &&& f.usedMask = w ↔ ∀ x : Field, x ∉ f.fields → w &&& x.mask = 0 := by
  constructor
  · intro h x hx
    rw [← h, BitVec.and_assoc, usedMask_and_mask hx]
    exact BitVec.and_zero
  · intro h
    refine BitVec.eq_of_getLsbD_eq fun k hk => ?_
    rw [BitVec.getLsbD_and]
    rcases bit_used_or_unused f ⟨k, hk⟩ with hused | ⟨x, hx, hbit⟩
    · rw [hused, Bool.and_true]
    · have hzero := congrArg (·.getLsbD k) (h x hx)
      have hw : w.getLsbD k = false := by simpa [hbit] using hzero
      rw [hw, Bool.false_and]

theorem encode_and_usedMask (i : Instr) : encode i &&& i.mnemonic.format.usedMask = encode i :=
  decode_iff.mp (decode_encode i)

/-- Two words with the same command, taken from the same state, are one step (R86). -/
theorem step_eq_of_decode {s : State} {v w : Word} (hs : s.waiting = false) (hv : decode v = .instr i)
    (hw : decode w = .instr i) (rest : List Word) :
    step { s with cmds := v :: rest } = step { s with cmds := w :: rest } := by
  rw [step_of_decode (s := { s with cmds := v :: rest }) hs rfl hv,
    step_of_decode (s := { s with cmds := w :: rest }) hs rfl hw]
  rfl

/-- The step on a word that spells no command (R85). -/
theorem step_of_illegal {s : State} {rest : List Word} {why : Illegal} (hs : s.waiting = false) (hc : s.cmds = w :: rest)
    (hd : decode w = .illegal why) : step s = .next (illegalCommand s.takeCommand) := by
  rw [step, presented_word hs hc, presentedWord, hd]

end CommandWords

section Assembler
variable {l : AsmLine} {i : Instr} {x : Field} {v : Int} {w : Word}

/-! ## The assembler -/

theorem fits_iff : x.fits v = true ↔ 0 ≤ v ∧ v ≤ if x = .idx then 65535 else 255 := by
  rw [Field.fits, decide_eq_true_eq]
  cases x <;> rfl

/-- The integers that a bit vector of `n` bits stands for. -/
theorem exists_toNat_eq_iff {n : Nat} : (∃ a : BitVec n, a.toNat = v) ↔ 0 ≤ v ∧ v < 2 ^ n := by
  constructor
  · rintro ⟨a, rfl⟩
    exact ⟨Int.natCast_nonneg _, by exact_mod_cast a.isLt⟩
  · rintro ⟨h, hv⟩
    refine ⟨BitVec.ofInt n v, ?_⟩
    rw [BitVec.toNat_ofInt, Int.emod_eq_of_lt h (by exact_mod_cast hv), Int.toNat_of_nonneg h]

theorem fits_idx_iff : Field.idx.fits v = true ↔ ∃ a : Index, a.toNat = v := by
  rw [fits_iff, exists_toNat_eq_iff, if_pos rfl]
  omega

theorem fits_byte_iff (hx : x ≠ .idx) : x.fits v = true ↔ ∃ a : Byte, a.toNat = v := by
  rw [fits_iff, exists_toNat_eq_iff, if_neg hx]
  omega

theorem wellFormed_iff : l.wellFormed = true ↔ l.operands.length = l.mnemonic.format.fields.length ∧
    ∀ p ∈ l.mnemonic.format.fields.zip l.operands, p.1.fits p.2 = true := by
  rw [AsmLine.wellFormed, Bool.and_eq_true, AsmLine.countOk, decide_eq_true_eq, AsmLine.operandsFit, List.all_eq_true]

/-- The operands of a well-formed line and the fields of its format go in pairs (R81, R88). -/
theorem wellFormed_iff_forall₂ :
    l.wellFormed = true ↔ List.Forall₂ (fun x v => x.fits v = true) l.mnemonic.format.fields l.operands := by
  rw [wellFormed_iff, List.forall₂_iff_zip, Prod.forall, eq_comm]

/-- Every well-formed line is the line of a command (R88). -/
theorem exists_toLine_eq (h : l.wellFormed = true) : ∃ i, toLine i = l := by
  obtain ⟨m, operands⟩ := l
  rw [wellFormed_iff_forall₂] at h
  cases m <;> simp [Mnemonic.format, Format.fields, List.forall₂_cons_left_iff, fits_idx_iff, fits_byte_iff] at h
  case CREATE => obtain ⟨n, rfl⟩ := h; exact ⟨.create n, rfl⟩
  case DESTROY => subst h; exact ⟨.destroy, rfl⟩
  case SHOW => subst h; exact ⟨.showStrip, rfl⟩
  case GET => obtain ⟨idx, rfl⟩ := h; exact ⟨.get idx, rfl⟩
  case SETCB => obtain ⟨idx, r, g, b, br, rfl⟩ := h; exact ⟨.setcb idx r g b br, rfl⟩
  case SETC => obtain ⟨idx, r, g, b, rfl⟩ := h; exact ⟨.setc idx r g b, rfl⟩
  case SETB => obtain ⟨idx, br, rfl⟩ := h; exact ⟨.setb idx br, rfl⟩
  case CLEAR => subst h; exact ⟨.clear, rfl⟩
  case FILLCB => obtain ⟨r, g, b, br, rfl⟩ := h; exact ⟨.fillcb r g b br, rfl⟩
  case FILLC => obtain ⟨r, g, b, rfl⟩ := h; exact ⟨.fillc r g b, rfl⟩
  case FILLB => obtain ⟨br, rfl⟩ := h; exact ⟨.fillb br, rfl⟩
  case PUSHF => obtain ⟨r, g, b, br, rfl⟩ := h; exact ⟨.pushf r g b br, rfl⟩
  case PUSHB => obtain ⟨r, g, b, br, rfl⟩ := h; exact ⟨.pushb r g b br, rfl⟩
  case ROTL => subst h; exact ⟨.rotl, rfl⟩
  case ROTR => subst h; exact ⟨.rotr, rfl⟩

theorem toLine_wellFormed (i : Instr) : (toLine i).wellFormed = true := by
  rw [wellFormed_iff_forall₂]
  cases i <;> simp [toLine, operandsOf, Instr.mnemonic, Mnemonic.format, Format.fields, fits_idx_iff, fits_byte_iff]

/-- The line of a command stands for that command: every operand is read back whole. -/
theorem toInstr_toLine (i : Instr) : toInstr (toLine i) = some i := by
  rw [toInstr, if_pos (toLine_wellFormed i)]
  cases i <;> simp [toLine, operandsOf, Instr.mnemonic]

theorem assemble_toLine (i : Instr) : assemble (toLine i) = some (encode i) := by
  rw [assemble, toInstr_toLine, Option.map_some]

theorem wellFormed_of_assemble (h : assemble l = some w) : l.wellFormed = true := by
  by_contra hl
  rw [assemble, toInstr, if_neg hl] at h
  cases h

/-- The assembler gives the canonical words of commands, each to the command's own line. -/
theorem assemble_eq_some_iff : assemble l = some w ↔ ∃ i, toLine i = l ∧ encode i = w := by
  constructor
  · intro h
    obtain ⟨i, rfl⟩ := exists_toLine_eq (wellFormed_of_assemble h)
    exact ⟨i, rfl, Option.some.inj ((assemble_toLine i).symm.trans h)⟩
  · rintro ⟨i, rfl, rfl⟩
    exact assemble_toLine i

theorem assemble_isSome_iff : (∃ w, assemble l = some w) ↔ l.wellFormed = true := by
  constructor
  · rintro ⟨w, h⟩
    exact wellFormed_of_assemble h
  · intro h
    obtain ⟨i, rfl⟩ := exists_toLine_eq h
    exact ⟨_, assemble_toLine i⟩

end Assembler

section Responses
variable {s t : State} {i : Instr}

/-! ## The response of a command -/

theorem Status.code_injective {st st' : Status} (h : st.code = st'.code) : st = st' := by
  revert h
  cases st <;> cases st' <;> decide

theorem SubCause.code_injective {sub sub' : SubCause} (h : sub.code = sub'.code) : sub = sub' := by
  revert h
  cases sub <;> cases sub' <;> decide

/-- The outcomes that a response reports (R97, R98): OK with data, the three causes of CONSTRUCTION_ERROR, IO_ERROR, and the two
errors without more. -/
inductive Reports : Status → SubCause → Byte → BitVec 32 → Prop where
  | ok (data : BitVec 32) : Reports .ok .none 0 data
  | numLedsZero : Reports .constructionError .numLedsZero 0 0
  | transportInit (e : Byte) : Reports .constructionError .transportInit e 0
  | capacity : Reports .constructionError .capacity 0 0
  | ioError (e : Byte) : Reports .ioError .none e 0
  | lifecycleError : Reports .lifecycleError .none 0 0
  | illegalCommand : Reports .illegalCommand .none 0 0

theorem Reports.goodResponse {st : Status} {sub : SubCause} {e : Byte} {d : BitVec 32} (h : Reports st sub e d) :
    GoodResponse (responseWord st sub e d) := by
  cases h <;> constructor <;> simp [Status.code, SubCause.code]

/-- The command is answered with one well-formed response, or its request is never answered (R96, R293). -/
def Answered (s t : State) : Prop :=
  (t.waiting = s.waiting ∧ ∃ w, GoodResponse w ∧ t.responses = s.responses ++ [w]) ∨
  (t.waiting = true ∧ t.responses = s.responses)

theorem answered_respond {st : Status} {sub : SubCause} {e : Byte} {d : BitVec 32} (h : Reports st sub e d)
    (hw : t.waiting = s.waiting) (hr : t.responses = s.responses) : Answered s (respond st sub e d t) :=
  .inl ⟨hw, _, h.goodResponse, congrArg (· ++ [_]) hr⟩

theorem answered_hang (hr : t.responses = s.responses) : Answered s t.hang := .inr ⟨rfl, hr⟩

theorem answered_afterWrite (a : WriteAnswer) (hw : t.waiting = s.waiting) (hr : t.responses = s.responses) :
    Answered s (afterWrite a t) := by
  cases a with
  | writeOk => exact answered_respond (.ok 0) hw hr
  | ioError e => exact answered_respond (.ioError e) hw hr
  | silent => exact answered_hang hr

theorem answered_buildStrip (n : Index) (hw : t.waiting = s.waiting) (hr : t.responses = s.responses) :
    Answered s (buildStrip n t) := by
  unfold buildStrip
  split
  · exact answered_respond .numLedsZero hw hr
  · split
    · exact answered_respond .capacity hw hr
    · exact answered_respond (.ok 0) hw hr

theorem answered_afterInit (n : Index) (a : InitAnswer) (hw : t.waiting = s.waiting) (hr : t.responses = s.responses) :
    Answered s (afterInit n a t) := by
  cases a with
  | initOk => exact answered_buildStrip n hw hr
  | initError e => exact answered_respond (.transportInit e) hw hr
  | silent => exact answered_hang hr

theorem Effect.answered (h : Effect s i t) : Answered s t := by
  cases h with
  | refused _ _ => exact answered_respond .lifecycleError rfl rfl
  | pixels _ _ _ he => obtain ⟨-, records, data, rfl, -⟩ := he; exact answered_respond (.ok data) rfl rfl
  | shown _ => exact answered_afterWrite _ rfl rfl
  | destroyed _ => exact answered_respond (.ok 0) rfl rfl
  | created n _ => exact answered_afterInit n _ rfl rfl

/-- A step that takes a word takes that word alone and answers it (R96). -/
theorem step_answered {w : Word} {rest : List Word} (hs : s.waiting = false) (hc : s.cmds = w :: rest)
    (h : step s = .next t) : t.cmds = rest ∧ Answered s t := by
  rcases step_next h with ⟨-, hw | hn⟩ | ⟨v, vs, -, hv, ⟨why, -, rfl⟩ | ⟨i, -, hi⟩⟩
  · simp [hs] at hw
  · simp [hc] at hn
  · exact ⟨by simp [hc], answered_respond .illegalCommand rfl rfl⟩
  · have he := exec_effect hi
    exact ⟨by simp [he.keeps_cmds, hc], he.answered⟩

/-- A step keeps the record of responses or adds a well-formed one. -/
theorem step_responses (h : step s = .next t) :
    t.responses = s.responses ∨ ∃ w, GoodResponse w ∧ t.responses = s.responses ++ [w] := by
  rcases step_next h with ⟨rfl, -⟩ | ⟨w, rest, hs, hc, -⟩
  · exact .inl rfl
  · rcases (step_answered hs hc h).2 with ⟨-, hw⟩ | ⟨-, hr⟩
    · exact .inr hw
    · exact .inl hr

end Responses

section Ready
variable {s : State} {n : Index} {i : Instr}

/-! ## The commands of the delegations in a Ready block -/

theorem State.Inv.respondOk (hs : s.Inv) (data : BitVec 32) : (respondOk data s).Inv :=
  hs.of_sameBlock (sameBlock_respondOk data s) rfl

/-- The word GET answers is laid out like a command word with the pixel read as its colour and brightness operands (R99). -/
theorem responseWord_getData (c : Colour) :
    responseWord .ok .none 0 (getData c) = commandWord 0 0 c.r c.g c.b c.brightness := by
  refine BitVec.eq_of_getLsbD_eq fun k hk => ?_
  simp only [responseWord_getLsbD, commandWord_getLsbD, getData, BitVec.getLsbD_or, BitVec.getLsbD_shiftLeft,
    BitVec.getLsbD_setWidth, Status.code, SubCause.code]
  grind

/-- The operands of the second command of a delegation are read back from GET's answer (R89, R99). -/
theorem getData_fields (c : Colour) :
    (responseWord .ok .none 0 (getData c)).extractLsb' 24 8 = c.r ∧
    (responseWord .ok .none 0 (getData c)).extractLsb' 16 8 = c.g ∧
    (responseWord .ok .none 0 (getData c)).extractLsb' 8 8 = c.b ∧
    (responseWord .ok .none 0 (getData c)).extractLsb' 0 8 = c.brightness := by
  rw [responseWord_getData]
  exact ⟨rField_commandWord .., gField_commandWord .., bField_commandWord .., brField_commandWord ..⟩

section Unread
variable (hr : s.life = .ready) (hn : s.numLeds = some n)
include hr hn

/-! Ready and the count are enough where no record is read, or where the record is known. -/

theorem exec_clear_eq : exec .clear s = .next (respondOk 0 (s.setPix (List.replicate n.toNat off))) := by
  rw [exec, execClear, whenReady_of_ready hr, withCount_eq hn]

theorem exec_fillcb_eq (r g b br : Byte) :
    exec (.fillcb r g b br) s = .next (respondOk 0 (s.setPix (List.replicate n.toNat (pack r g b br)))) := by
  rw [exec, execFillcb, whenReady_of_ready hr, withCount_eq hn]

theorem exec_get_eq {idx : Index} {p : Pixel} (hi : idx.toNat < n.toNat) (hp : s.pix[idx.toNat]? = some p) :
    exec (.get idx) s = .next (respondOk (getData (unpack p)) s) := by
  have hin : inRange idx n = true := decide_eq_true hi
  rw [exec, execGet, whenReady_of_ready hr, withCount_eq hn, if_pos hin, effectivePixel, withRecord_eq hp]

end Unread

variable (hs : s.Inv) (hr : s.life = .ready) (hn : s.numLeds = some n)
include hs hr hn

/-- The invariant lets the command go on, so its inversion says what it does. -/
theorem exec_next_of_appliesToStore {f : Index → List Pixel → List Pixel}
    (h : ∀ t, exec i s = .next t → AppliesToStore f s t) :
    exec i s = .next (respondOk 0 (s.setPix (f n s.pix))) := by
  obtain ⟨t, ht⟩ := exec_goes_on hs i
  rcases h t ht with ⟨-, m, hm, rfl⟩ | ⟨hl, -⟩
  · obtain rfl : m = n := by simpa [hm] using hn
    exact ht
  · exact absurd hr hl

theorem exec_setcb_eq (idx : Index) (r g b br : Byte) : exec (.setcb idx r g b br) s =
    .next (respondOk 0 (s.setPix (updateRecord idx (fun _ => pack r g b br) n s.pix))) :=
  exec_next_of_appliesToStore hs hr hn fun _ => exec_setcb_appliesToStore

theorem exec_setc_eq (idx : Index) (r g b : Byte) : exec (.setc idx r g b) s =
    .next (respondOk 0 (s.setPix (updateRecord idx (recolour r g b) n s.pix))) :=
  exec_next_of_appliesToStore hs hr hn fun _ => appliesToStore_of_readRecord

theorem exec_setb_eq (idx : Index) (br : Byte) : exec (.setb idx br) s =
    .next (respondOk 0 (s.setPix (updateRecord idx (rebright br) n s.pix))) :=
  exec_next_of_appliesToStore hs hr hn fun _ => appliesToStore_of_readRecord

theorem exec_fillc_eq (r g b : Byte) :
    exec (.fillc r g b) s = .next (respondOk 0 (s.setPix (eachLane (recolour r g b) s.pix))) := by
  rw [exec, execFillc, whenReady_of_ready hr, withCount_eq hn, withStrip_eq (hs.count_unique hr hn).length]

theorem exec_fillb_eq (br : Byte) :
    exec (.fillb br) s = .next (respondOk 0 (s.setPix (eachLane (rebright br) s.pix))) := by
  rw [exec, execFillb, whenReady_of_ready hr, withCount_eq hn, withStrip_eq (hs.count_unique hr hn).length]

theorem exec_pushf_eq (r g b br : Byte) :
    exec (.pushf r g b br) s = .next (respondOk 0 (s.setPix (shiftBack (pack r g b br) s.pix))) := by
  rw [exec, execPushf, whenReady_of_ready hr, withCount_eq hn, withStrip_eq (hs.count_unique hr hn).length]

theorem exec_pushb_eq (r g b br : Byte) :
    exec (.pushb r g b br) s = .next (respondOk 0 (s.setPix (shiftFront (pack r g b br) s.pix))) := by
  rw [exec, execPushb, whenReady_of_ready hr, withCount_eq hn, withStrip_eq (hs.count_unique hr hn).length]

theorem exec_rotl_eq {p : Pixel} (hp : s.pix[0]? = some p) :
    exec .rotl s = .next (respondOk 0 (s.setPix (shiftFront (repack (unpack p)) s.pix))) := by
  rw [exec, execRotl, whenReady_of_ready hr, withCount_eq hn, withStrip_eq (hs.count_unique hr hn).length, withRecord_eq hp]

theorem exec_rotr_eq {p : Pixel} (hp : s.pix[n.toNat - 1]? = some p) :
    exec .rotr s = .next (respondOk 0 (s.setPix (shiftBack (repack (unpack p)) s.pix))) := by
  rw [exec, execRotr, whenReady_of_ready hr, withCount_eq hn, withStrip_eq (hs.count_unique hr hn).length, withRecord_eq hp]

/-- GET answers the pixel at an index in range, each operand in its place, and leaves the block (R131). -/
theorem get_answers {idx : Index} (hi : idx.toNat < n.toNat) :
    ∃ p w, s.pix[idx.toNat]? = some p ∧ Answers (.get idx) s w (respondOk (getData (unpack p)) s) ∧
      w.extractLsb' 24 8 = (unpack p).r ∧ w.extractLsb' 16 8 = (unpack p).g ∧ w.extractLsb' 8 8 = (unpack p).b ∧
      w.extractLsb' 0 8 = (unpack p).brightness := by
  obtain ⟨p, hp⟩ := (hs.count_unique hr hn).record hi
  exact ⟨p, _, hp, ⟨exec_get_eq hr hn hi hp, rfl⟩, getData_fields (unpack p)⟩

end Ready

section Delegations
variable {s : State} {n : Index}

/-! ## A delegated command and its parts leave the same store -/

theorem updateRecord_read {idx : Index} {p : Pixel} {records : List Pixel} (hp : records[idx.toNat]? = some p)
    (f : Pixel → Pixel) (n : Index) : updateRecord idx (fun _ => f p) n records = updateRecord idx f n records := by
  unfold updateRecord
  rw [effectivePixel, ← List.set_eq_modify, ← writeRecord_eq_modify hp, writeRecord]

/-- The block depends on the store a command leaves, and not on what was answered before it. -/
theorem sameBlock_setPix (d : BitVec 32) {xs ys : List Pixel} (h : xs = ys) (s : State) :
    SameBlock (respondOk 0 (s.setPix xs)) (respondOk 0 ((respondOk d s).setPix ys)) :=
  ⟨rfl, rfl, rfl, h.symm, rfl, rfl⟩

section Reads
variable (hs : s.Inv) (hr : s.life = .ready) (hn : s.numLeds = some n)
include hs hr hn

theorem setc_delegates {idx : Index} (hi : idx.toNat < n.toNat) (r g b : Byte) :
    ∃ t u v w, exec (.setc idx r g b) s = .next t ∧ Answers (.get idx) s w u ∧
      exec (.setcb idx r g b (w.extractLsb' 0 8)) u = .next v ∧ SameBlock t v := by
  obtain ⟨p, w, hp, hw, -, -, -, hbr⟩ := get_answers hs hr hn hi
  refine ⟨_, _, _, w, exec_setc_eq hs hr hn idx r g b, hw, exec_setcb_eq (hs.respondOk _) hr hn idx r g b _, ?_⟩
  rw [hbr]
  exact sameBlock_setPix _ (updateRecord_read hp (recolour r g b) n).symm s

theorem setb_delegates {idx : Index} (hi : idx.toNat < n.toNat) (br : Byte) :
    ∃ t u v w, exec (.setb idx br) s = .next t ∧ Answers (.get idx) s w u ∧
      exec (.setcb idx (w.extractLsb' 24 8) (w.extractLsb' 16 8) (w.extractLsb' 8 8) br) u = .next v ∧
      SameBlock t v := by
  obtain ⟨p, w, hp, hw, hred, hgreen, hblue, -⟩ := get_answers hs hr hn hi
  refine ⟨_, _, _, w, exec_setb_eq hs hr hn idx br, hw, exec_setcb_eq (hs.respondOk _) hr hn idx _ _ _ _, ?_⟩
  rw [hred, hgreen, hblue]
  exact sameBlock_setPix _ (updateRecord_read hp (rebright br) n).symm s

theorem rotl_delegates :
    ∃ t u v w, exec .rotl s = .next t ∧ Answers (.get 0) s w u ∧
      exec (.pushb (w.extractLsb' 24 8) (w.extractLsb' 16 8) (w.extractLsb' 8 8) (w.extractLsb' 0 8)) u = .next v ∧
      SameBlock t v := by
  obtain ⟨p, w, hp, hw, hred, hgreen, hblue, hbr⟩ := get_answers hs hr hn (idx := 0) (hs.count_unique hr hn).positive
  refine ⟨_, _, _, w, exec_rotl_eq hs hr hn hp, hw, exec_pushb_eq (hs.respondOk _) hr hn _ _ _ _, ?_⟩
  rw [hred, hgreen, hblue, hbr]
  exact sameBlock_setPix _ rfl s

theorem rotr_delegates :
    ∃ t u v w, exec .rotr s = .next t ∧ Answers (.get (n - 1)) s w u ∧
      exec (.pushf (w.extractLsb' 24 8) (w.extractLsb' 16 8) (w.extractLsb' 8 8) (w.extractLsb' 0 8)) u = .next v ∧
      SameBlock t v := by
  have hpos := (hs.count_unique hr hn).positive
  have hlast : (n - 1).toNat = n.toNat - 1 := BitVec.toNat_sub_of_le (y := 1) hpos
  obtain ⟨p, w, hp, hw, hred, hgreen, hblue, hbr⟩ := get_answers hs hr hn (idx := n - 1) (by omega)
  refine ⟨_, _, _, w, exec_rotr_eq hs hr hn (hlast ▸ hp), hw, exec_pushf_eq (hs.respondOk _) hr hn _ _ _ _, ?_⟩
  rw [hred, hgreen, hblue, hbr]
  exact sameBlock_setPix _ rfl s

end Reads

/-! ## A fill is its setter at every index -/

theorem updateRecord_indexOf {k : Nat} (hk : k < n.toNat) (f : Pixel → Pixel) (records : List Pixel) :
    updateRecord (indexOf k) f n records = records.modify k f := by
  have hto : (indexOf k).toNat = k := Nat.mod_eq_of_lt (hk.trans n.isLt)
  rw [updateRecord, inRange, effectivePixel, hto, if_pos (decide_eq_true hk)]

/-- The store after a setter at each of these indices, one after the other. -/
def updateEach (order : List Nat) (f : Pixel → Pixel) (n : Index) (records : List Pixel) : List Pixel :=
  order.foldl (fun records k => updateRecord (indexOf k) f n records) records

theorem getElem?_updateEach_range {m : Nat} (hm : m ≤ n.toNat) (f : Pixel → Pixel) (records : List Pixel) (j : Nat) :
    (updateEach (List.range m) f n records)[j]? = if j < m then records[j]?.map f else records[j]? := by
  induction m with
  | zero => rfl
  | succ m ih =>
    rw [updateEach, List.range_succ, List.foldl_append, List.foldl_cons, List.foldl_nil, ← updateEach,
      updateRecord_indexOf hm, List.getElem?_modify, ih (Nat.le_of_succ_le hm)]
    by_cases hj : m = j
    · simp [hj]
    · simp [hj, show j < m + 1 ↔ j < m by omega]

theorem updateEach_range {records : List Pixel} (hl : records.length = n.toNat) (f : Pixel → Pixel) :
    updateEach (List.range n.toNat) f n records = eachLane f records := by
  refine List.ext_getElem? fun j => ?_
  rw [getElem?_updateEach_range le_rfl, eachLane, List.getElem?_map]
  by_cases hj : j < n.toNat
  · rw [if_pos hj]
  · rw [if_neg hj, List.getElem?_eq_none (by omega), Option.map_none]

/-- The command replaces the record at an index in range by `f` of itself, in every Ready block. -/
def IsSetter (c : Index → Instr) (f : Pixel → Pixel) : Prop :=
  ∀ (s : State) (n idx : Index), s.Inv → s.life = .ready → s.numLeds = some n →
    exec (c idx) s = .next (respondOk 0 (s.setPix (updateRecord idx f n s.pix)))

theorem IsSetter.execAll_next {c : Index → Instr} {f : Pixel → Pixel} (hc : IsSetter c f) (order : List Nat) (hs : s.Inv)
    (hr : s.life = .ready) (hn : s.numLeds = some n) :
    ∃ v, execAll (order.map fun k => c (indexOf k)) s = .next v ∧ SameBlock (s.setPix (updateEach order f n s.pix)) v := by
  induction order generalizing s with
  | nil => exact ⟨s, rfl, rfl, rfl, rfl, rfl, rfl, rfl⟩
  | cons k order ih =>
    have hk := hc s n (indexOf k) hs hr hn
    obtain ⟨v, hv, hb⟩ := ih ((exec_effect hk).keeps_inv hs) hr hn
    refine ⟨v, ?_, hb.life, hb.numLeds, hb.footerLen, hb.pix, hb.hdr, hb.ftr⟩
    rw [List.map_cons, execAll, hk]
    exact hv

/-- A fill by `f` leaves what its setter leaves, run for `i = 0` to `N-1` (R89). -/
theorem fill_delegates {i : Instr} {c : Index → Instr} {f : Pixel → Pixel} (hc : IsSetter c f) (hs : s.Inv)
    (hr : s.life = .ready) (hn : s.numLeds = some n)
    (hi : exec i s = .next (respondOk 0 (s.setPix (eachLane f s.pix)))) :
    ∃ t v, exec i s = .next t ∧ execAll ((List.range n.toNat).map fun k => c (indexOf k)) s = .next v ∧
      SameBlock t v := by
  obtain ⟨v, hv, hb⟩ := hc.execAll_next (List.range n.toNat) hs hr hn
  rw [updateEach_range (hs.count_unique hr hn).length] at hb
  exact ⟨_, v, hi, hv, hb.life, hb.numLeds, hb.footerLen, hb.pix, hb.hdr, hb.ftr⟩

end Delegations

/-! # The statements of the encoding's family -/

/-- Settles O1: the decoder reads a word as `i` exactly when the used bits of the word are the canonical word of `i`. -/
theorem decodeAndEncodeAgree : Obligations.DecodeAndEncodeAgree := by
  refine ⟨decode_encode, fun w i h => (decode_iff.mp h).symm, fun w i h => ?_⟩
  rw [← decode_iff.mp h, and_usedMask_eq_self_iff]

/-- Settles O2: the used bits of a word decide its command, and a canonical word is its own used bits. -/
theorem unusedFieldsAreIgnored : Obligations.UnusedFieldsAreIgnored := by
  refine ⟨fun w v i hw hvw => ?_, fun i => and_usedMask_eq_self_iff.mp (encode_and_usedMask i)⟩
  have hv : decode v = .instr i := decode_iff.mpr (hvw.trans (decode_iff.mp hw))
  exact ⟨hv, fun s rest hs => step_eq_of_decode hs hv hw rest⟩

/-- Settles O3: the mask leaves `op` alone when `rsv` is zero, and `op` selects the mnemonic; the table is compared
row by row. -/
theorem matchAndMaskSelectTheCommand : Obligations.MatchAndMaskSelectTheCommand := by
  refine ⟨fun w h => decode_illegal_iff.mpr (.inl h), fun row hrow => ?_⟩
  have htable : row.1.format = row.2.2 ∧ BitVec.ofNat 64 row.2.1 <<< 60 = commandWord row.1.opcode 0 0 0 0 0 := by
    revert row
    decide
  exact ⟨htable.1, fun w => by rw [decode_mnemonic_iff, htable.2, ← and_opcodeMask_iff, opcodeMask]⟩

/-- Settles O4: an illegal word is answered before anything of the state is looked at. -/
theorem illegalWordIsAnsweredFirst : Obligations.IllegalWordIsAnsweredFirst := by
  refine ⟨fun w => decode_illegal_iff, fun s w rest hs hc h => ?_, by decide⟩
  obtain ⟨why, hd⟩ := decode_illegal_iff.mpr h
  have hrw : responseWord .illegalCommand .none 0 0 = 0x4000000000000000#64 := by decide
  rw [step_of_illegal hs hc hd, illegalCommand, respond, hrw, State.giveResponse, State.takeCommand, hc, List.tail_cons]

/-- Settles O5, by evaluation of the decoder on the eight words. -/
theorem wordsDecodeToTheirCommands : Obligations.WordsDecodeToTheirCommands := by
  unfold Obligations.WordsDecodeToTheirCommands
  decide

/-- Settles O56: a well-formed line is the line of a command, and the line of a command gets the command's canonical word. -/
theorem assemblerRefusesExactlyIllFormedLines : Obligations.AssemblerRefusesExactlyIllFormedLines := by
  refine ⟨fun l => ?_, fun l w h => ?_, assemble_toLine⟩
  · simp only [assemble_isSome_iff, wellFormed_iff, fits_iff]
  · obtain ⟨i, hi, rfl⟩ := assemble_eq_some_iff.mp h
    exact ⟨i, decode_encode i, hi⟩

/-- Settles O7: each field of a response word reads back, and the codes of two statuses or two sub-causes differ. -/
theorem responseFieldsReadBack : Obligations.ResponseFieldsReadBack := by
  refine ⟨fun st sub e d => ⟨statusField_responseWord .., zeroField_responseWord .., subField_responseWord ..,
    errField_responseWord .., dataField_responseWord ..⟩, fun st st' sub sub' e e' d d' h => ⟨?_, ?_, ?_, ?_⟩⟩
  · exact Status.code_injective (by simpa using congrArg statusField h)
  · exact SubCause.code_injective (by simpa using congrArg subField h)
  · simpa using congrArg errField h
  · simpa using congrArg dataField h

/-- Settles O8: a step adds at most one response, and that one reports an outcome of R97 and R98. -/
theorem responsesStayWellFormed : Obligations.ResponsesStayWellFormed := by
  intro s t hs h w hw
  rcases step_responses h with hr | ⟨v, hv, hr⟩
  · exact hs w (hr ▸ hw)
  · rw [hr, List.mem_append, List.mem_singleton] at hw
    exact hw.elim (hs w) (· ▸ hv)

/-- Settles O9: the step takes the host's next word, and what it runs is answered or hangs. -/
theorem oneResponsePerCommand : Obligations.OneResponsePerCommand := by
  intro s t w rest hs hc h
  obtain ⟨hcmds, ⟨hw, rw, -, hr⟩ | ⟨hw, hr⟩⟩ := step_answered hs hc h
  · exact ⟨hcmds, fun _ => ⟨rw, hr⟩, fun ht => by simp [hw, hs] at ht⟩
  · exact ⟨hcmds, fun ht => by simp [hw] at ht, fun _ => hr⟩

/-- Settles O33: GET's answer holds the operands of the second command, and a fill is its setter at every index in turn. -/
theorem delegationLaws : Obligations.DelegationLaws := by
  intro s n r g b br hs hr hn
  refine ⟨fun idx hi => setc_delegates hs hr hn hi r g b, fun idx hi => setb_delegates hs hr hn hi br, ?_, ?_, ?_, ?_,
    rotl_delegates hs hr hn, rotr_delegates hs hr hn⟩
  · exact ⟨_, _, exec_clear_eq hr hn, exec_fillcb_eq hr hn 0 0 0 31, ⟨rfl, rfl, rfl, rfl, rfl, rfl⟩⟩
  · refine fill_delegates (c := fun idx => .setcb idx r g b br) (f := fun _ => pack r g b br)
      (fun s n idx hs hr hn => exec_setcb_eq hs hr hn idx r g b br) hs hr hn ?_
    rw [exec_fillcb_eq hr hn, eachLane, List.map_const', (hs.count_unique hr hn).length]
  · exact fill_delegates (c := fun idx => .setc idx r g b)
      (fun s n idx hs hr hn => exec_setc_eq hs hr hn idx r g b) hs hr hn (exec_fillc_eq hs hr hn r g b)
  · exact fill_delegates (c := fun idx => .setb idx br)
      (fun s n idx hs hr hn => exec_setb_eq hs hr hn idx br) hs hr hn (exec_fillb_eq hs hr hn br)

end Sys2Proof.Machine


/-! # The pixel codec's family: clamp, pack and unpack (40_pixel_codec.md)

The value of `clamp5` decides the range of a packed brightness byte and that clamping twice is clamping once. What repacking an
unpacked record leaves of the brightness byte is read off its tag and its low five bits, which are all of it. -/

namespace Sys2Proof.Machine

section Codec
variable {p : Pixel} (r g b br : Byte)

theorem toNat_clamp5 : (clamp5 br).toNat = min br.toNat 31 := by
  rw [clamp5]
  split
  · simp only [BitVec.toNat_ofNat]; omega
  · rw [BitVec.toNat_setWidth]; omega

theorem setWidth_clamp5 : (clamp5 br).setWidth 8 = BitVec.ofNat 8 (min br.toNat 31) := by
  rw [← toNat_clamp5, BitVec.ofNat_toNat]

theorem clamp5_idem : clamp5 ((clamp5 br).setWidth 8) = clamp5 br := by
  apply BitVec.eq_of_toNat_eq
  rw [toNat_clamp5, BitVec.toNat_setWidth_of_le (by decide), toNat_clamp5, min_assoc, min_self]

/-- The clamped brightness does not reach into the tag, so the OR is a sum (R112). -/
theorem toNat_byte0_pack : (pack r g b br).byte0.toNat = 0xE0 + min br.toNat 31 := by
  have hlow : min br.toNat 31 < 2 ^ 5 := by omega
  rw [pack, BitVec.toNat_or, BitVec.toNat_setWidth_of_le (by decide), toNat_clamp5]
  exact (Nat.two_pow_add_eq_or_of_lt hlow 7).symm

/-! ## Tag and brightness -/

theorem Pixel.legal_iff : p.legal = true ↔ p.byte0.extractLsb' 5 3 = 0b111#3 := beq_iff_eq

/-- `unpack` keeps the five low bits of the brightness byte (R113). -/
theorem brightness_unpack (p : Pixel) : (unpack p).brightness = (p.byte0.setWidth 5).setWidth 8 := by
  apply BitVec.eq_of_toNat_eq
  rw [unpack, BitVec.toNat_and, BitVec.toNat_setWidth_of_le (by decide), BitVec.toNat_setWidth]
  exact Nat.and_two_pow_sub_one_eq_mod _ 5

theorem toNat_brightness_le (p : Pixel) : (unpack p).brightness.toNat ≤ 31 := by
  rw [brightness_unpack, BitVec.toNat_setWidth_of_le (by decide)]
  exact Nat.le_of_lt_succ (p.byte0.setWidth 5).isLt

theorem low_byte0_pack : (pack r g b br).byte0.setWidth 5 = clamp5 br := by
  rw [← clamp5_brightness, clamp5_brightness_pack]

/-! ## Round trips -/

theorem unpack_pack :
    unpack (pack r g b br) = { r := r, g := g, b := b, brightness := BitVec.ofNat 8 (min br.toNat 31) } := by
  have hbr : (unpack (pack r g b br)).brightness = BitVec.ofNat 8 (min br.toNat 31) := by
    rw [brightness_unpack, low_byte0_pack, setWidth_clamp5]
  rw [← hbr]; rfl

theorem legal_repack (c : Colour) : (repack c).legal = true := Pixel.legal_pack ..

/-- Repacking is recolouring with the record's own colours, so byte 0 keeps its low five bits and only gets the tag. -/
theorem repack_unpack_of_legal (hp : p.legal = true) : repack (unpack p) = p :=
  congrArg (Pixel.mk · p.byte1 p.byte2 p.byte3) (byte0_recolour p.byte3 p.byte2 p.byte1 hp)

theorem low_byte0_repack_unpack (p : Pixel) : (repack (unpack p)).byte0.setWidth 5 = p.byte0.setWidth 5 := by
  rw [repack, low_byte0_pack, clamp5_brightness]

theorem byte0_repack_unpack_ne (hp : p.byte0.extractLsb' 5 3 ≠ 0b111#3) : (repack (unpack p)).byte0 ≠ p.byte0 :=
  fun h => hp (h ▸ Pixel.legal_iff.mp (legal_repack (unpack p)))

end Codec

/-! # The statements of the pixel codec's family -/

/-- Settles O10: the value of `clamp5` gives the packed byte, and the five low bits give the brightness read back. -/
theorem codecFollowsItsFormulas : Obligations.CodecFollowsItsFormulas := by
  refine ⟨toNat_clamp5, fun r g b br => ⟨?_, toNat_byte0_pack r g b br⟩,
    fun p => ⟨rfl, rfl, rfl, rfl, toNat_brightness_le p⟩⟩
  rw [← setWidth_clamp5]; rfl

/-- Settles O11: a packed record is tagged, and repacking keeps the five low bits of the brightness byte; a tagged record
is legal, and so is every record of a state that meets the invariant. -/
theorem codecRoundTrips : Obligations.CodecRoundTrips := by
  refine ⟨unpack_pack, fun p hp => repack_unpack_of_legal (Pixel.legal_iff.mpr hp), fun p hp => ?_,
    fun s p hs _ hp => Pixel.legal_iff.mp (hs.legal p hp), clamp5_idem⟩
  refine ⟨byte0_repack_unpack_ne hp, Pixel.legal_iff.mp (legal_repack _), ?_, rfl, rfl, rfl⟩
  simpa only [BitVec.setWidth_eq_extractLsb' (by decide : 5 ≤ 8)] using low_byte0_repack_unpack p

end Sys2Proof.Machine


/-! # The per-pixel commands' family: GET, SETCB, SETC, SETB (41_pixel_access.md)

A setter puts `updateRecord` in the store's place, so its statement follows from the record it stores, and a GET after it answers
that record. -/

namespace Sys2Proof.Machine

/-! ## The decoder, the operation code known -/

theorem decode_of_opField {w : Word} {op : BitVec 4} (hop : opField w = op) (hrsv : rsvField w = 0) :
    decode w = decodeOp op.toNat w := by
  rw [decode, if_neg (not_not.mpr hrsv), hop]

section Records
variable (r g b br : Byte)

/-! ## The records the setters store -/

/-- SETCB's record: the brightness clamped and tagged, then blue, green, red (R132). -/
theorem pack_eq_tagged : pack r g b br =
    { byte0 := 0xE0#8 ||| BitVec.ofNat 8 (min br.toNat 31), byte1 := b, byte2 := g, byte3 := r } := by
  rw [pack, setWidth_clamp5]

/-- SETC's record: byte 0 is written back with the value it had (R133). -/
theorem recolour_of_legal {p : Pixel} (hp : p.legal = true) :
    recolour r g b p = { p with byte1 := b, byte2 := g, byte3 := r } :=
  congrArg (Pixel.mk · b g r) (byte0_recolour r g b hp)

/-- SETB's record: bytes 1 to 3 are written back as they were (R134). -/
theorem rebright_eq_tagged (p : Pixel) :
    rebright br p = { p with byte0 := 0xE0#8 ||| BitVec.ofNat 8 (min br.toNat 31) } :=
  pack_eq_tagged p.byte3 p.byte2 p.byte1 br

theorem toNat_brightness_pack : (unpack (pack r g b br)).brightness.toNat = min br.toNat 31 := by
  rw [brightness_unpack, low_byte0_pack, BitVec.toNat_setWidth_of_le (by decide), toNat_clamp5]

/-- Recolouring keeps the brightness of every record, legal or not: the tag is not part of it. -/
theorem brightness_recolour (p : Pixel) : (unpack (recolour r g b p)).brightness = (unpack p).brightness := by
  rw [brightness_unpack, recolour, low_byte0_pack, clamp5_brightness, ← brightness_unpack]

end Records

section Store
variable {idx n : Index} {f g : Pixel → Pixel} {records : List Pixel}

/-! ## The store after a setter -/

theorem not_inRange_of_le (hi : n.toNat ≤ idx.toNat) : ¬ inRange idx n = true :=
  fun h => absurd (of_decide_eq_true h) (not_lt.mpr hi)

theorem updateRecord_of_lt (hi : idx.toNat < n.toNat) : updateRecord idx f n records = records.modify idx.toNat f :=
  if_pos (decide_eq_true hi)

theorem updateRecord_of_le (hi : n.toNat ≤ idx.toNat) : updateRecord idx f n records = records :=
  if_neg (not_inRange_of_le hi)

/-- What `f` makes of records that are not in the store does not matter. -/
theorem updateRecord_congr (hf : ∀ p ∈ records, f p = g p) : updateRecord idx f n records = updateRecord idx g n records := by
  rcases lt_or_ge idx.toNat n.toNat with hi | hi
  · rw [updateRecord_of_lt hi, updateRecord_of_lt hi, List.modify_eq_set_getElem?, List.modify_eq_set_getElem?]
    cases hp : records[idx.toNat]? with
    | none => rfl
    | some p => simp [hf p (List.mem_of_getElem? hp)]
  · rw [updateRecord_of_le hi, updateRecord_of_le hi]

theorem getElem?_updateRecord_self {p : Pixel} (hi : idx.toNat < n.toNat) (hp : records[idx.toNat]? = some p) :
    (updateRecord idx f n records)[idx.toNat]? = some (f p) := by
  rw [updateRecord_of_lt hi, List.getElem?_modify_eq, hp, Option.map_eq_map, Option.map_some]

/-- A setter writes no record but the one at its index. -/
theorem SetsRecord.getElem?_ne {s t : State} (h : SetsRecord idx f s t) {j : Nat} (hj : j ≠ idx.toNat) :
    t.pix[j]? = s.pix[j]? := by
  rcases h with h | ⟨p, -, h⟩
  · rw [h]
  · rw [h, writeRecord, effectivePixel, List.getElem?_set_ne hj.symm]

end Store

section Commands
variable {s : State} {n idx : Index} {i : Instr} {f g : Pixel → Pixel}

/-! ## The commands in a Ready block -/

/-- The fields a command on the pixel store writes when it answers OK without data. -/
theorem respondOk_zero_setPix (s : State) (records : List Pixel) :
    respondOk 0 (s.setPix records) = { s with pix := records, responses := s.responses ++ [0#64] } := by
  rw [← responseWord_ok]; rfl

/-- The index test and the record written, of a setter that puts `updateRecord` in the store's place. -/
theorem next_of_updateRecord (h : exec i s = .next (respondOk 0 (s.setPix (updateRecord idx f n s.pix))))
    (hf : ∀ p ∈ s.pix, f p = g p) :
    exec i s = .next { s with
      pix := if idx.toNat < n.toNat then s.pix.modify idx.toNat g else s.pix
      responses := s.responses ++ [0#64] } := by
  rw [h, respondOk_zero_setPix, updateRecord_congr hf]
  rcases lt_or_ge idx.toNat n.toNat with hi | hi
  · rw [updateRecord_of_lt hi, if_pos hi]
  · rw [updateRecord_of_le hi, if_neg (not_lt.mpr hi)]

/-- SETCB reads no record, so it goes on in every Ready block that has a count (R132). -/
theorem exec_setcb_of_ready (hr : s.life = .ready) (hn : s.numLeds = some n) (idx : Index) (r g b br : Byte) :
    exec (.setcb idx r g b br) s = .next (respondOk 0 (s.setPix (updateRecord idx (fun _ => pack r g b br) n s.pix))) := by
  rw [exec, execSetcb, whenReady_of_ready hr, withCount_eq hn]
  rcases lt_or_ge idx.toNat n.toNat with hi | hi
  · rw [updateRecord_of_lt hi, ← List.set_eq_modify]
    exact if_pos (decide_eq_true hi)
  · rw [updateRecord_of_le hi]
    exact if_neg (not_inRange_of_le hi)

theorem exec_get_of_le (hr : s.life = .ready) (hn : s.numLeds = some n) (hi : n.toNat ≤ idx.toNat) :
    exec (.get idx) s = .next { s with responses := s.responses ++ [0#64] } := by
  rw [exec, execGet, whenReady_of_ready hr, withCount_eq hn, if_neg (not_inRange_of_le hi)]
  exact congrArg _ (respondOk_zero_setPix s s.pix)

theorem isSetter_setcb (r g b br : Byte) : IsSetter (fun idx => .setcb idx r g b br) fun _ => pack r g b br :=
  fun _ _ idx _ hr hn => exec_setcb_of_ready hr hn idx r g b br

theorem isSetter_setc (r g b : Byte) : IsSetter (fun idx => .setc idx r g b) (recolour r g b) :=
  fun _ _ idx hs hr hn => exec_setc_eq hs hr hn idx r g b

theorem isSetter_setb (br : Byte) : IsSetter (fun idx => .setb idx br) (rebright br) :=
  fun _ _ idx hs hr hn => exec_setb_eq hs hr hn idx br

section Setter
variable {c : Index → Instr} (hc : IsSetter c f) (hs : s.Inv) (hr : s.life = .ready) (hn : s.numLeds = some n)
include hc hs hr hn

/-- A setter whose index is out of range answers OK and changes nothing (R58, R136). -/
theorem IsSetter.exec_of_le (hi : n.toNat ≤ idx.toNat) :
    exec (c idx) s = .next { s with responses := s.responses ++ [0#64] } := by
  rw [hc s n idx hs hr hn, updateRecord_of_le hi, respondOk_zero_setPix]

/-- A GET after a setter answers the record that the setter stored. -/
theorem IsSetter.get_after {p : Pixel} (hi : idx.toNat < n.toNat) (hp : s.pix[idx.toNat]? = some p) :
    ∃ t u, exec (c idx) s = .next t ∧ Answers (.get idx) t (responseWord .ok .none 0 (getData (unpack (f p)))) u :=
  ⟨_, _, hc s n idx hs hr hn, exec_get_eq (s := respondOk 0 (s.setPix (updateRecord idx f n s.pix))) hr hn hi
    (getElem?_updateRecord_self hi hp), rfl⟩

end Setter

/-! ## The word GET answers -/

/-- The 24 colour bits of GET's answer are red, green and blue in this order (R99). -/
theorem getData_colour (c : Colour) : (responseWord .ok .none 0 (getData c)).extractLsb' 8 24 = c.r ++ (c.g ++ c.b) := by
  obtain ⟨hred, hgreen, hblue, -⟩ := getData_fields c
  rw [← hred, ← hgreen, ← hblue,
    BitVec.extractLsb'_append_extractLsb'_eq_extractLsb' (start₁ := 8) (start₂ := 16) rfl,
    BitVec.extractLsb'_append_extractLsb'_eq_extractLsb' (start₁ := 8) (start₂ := 24) rfl]

/-- GET's answer as the spec writes it (R131). -/
theorem responseWord_getData_unpack (p : Pixel) : responseWord .ok .none 0 (getData (unpack p)) =
    (p.byte3.setWidth 64 <<< 24) ||| (p.byte2.setWidth 64 <<< 16) ||| (p.byte1.setWidth 64 <<< 8) |||
      (p.byte0 &&& 0x1F#8).setWidth 64 := by
  rw [responseWord_getData, commandWord, unpack]
  simp

end Commands

/-! # The statements of the per-pixel commands' family -/

/-- Settles O15: GET's answer in range is the unpacked record, laid out as a word. -/
theorem getReadsOnePixel : Obligations.GetReadsOnePixel := by
  refine ⟨fun w hop hrsv => decode_of_opField hop hrsv, fun s n idx hs hr hn => ⟨fun hi => ?_, exec_get_of_le hr hn⟩⟩
  obtain ⟨p, hp⟩ := (hs.count_unique hr hn).record hi
  refine ⟨p, hp, ?_⟩
  rw [exec_get_eq hr hn hi hp, ← responseWord_getData_unpack]
  rfl

/-- Settles O16: the record stored is the packed operands, whatever stood there. -/
theorem setcbStoresOneRecord : Obligations.SetcbStoresOneRecord := by
  refine ⟨fun w hop hrsv => decode_of_opField hop hrsv, fun s n idx r g b br hr hn => ?_⟩
  rw [List.set_eq_modify]
  exact next_of_updateRecord (exec_setcb_of_ready hr hn idx r g b br) fun _ _ => pack_eq_tagged r g b br

/-- Settles O17: every record is legal under the invariant, so recolouring keeps its byte 0. -/
theorem setcKeepsBrightness : Obligations.SetcKeepsBrightness :=
  ⟨fun _ hop hrsv => decode_of_opField hop hrsv, fun _ _ idx r g b hs hr hn =>
    next_of_updateRecord (exec_setc_eq hs hr hn idx r g b) fun p hp => recolour_of_legal r g b (hs.legal p hp)⟩

/-- Settles O18: the record is packed from its own colour and the new brightness. -/
theorem setbKeepsColour : Obligations.SetbKeepsColour :=
  ⟨fun _ hop hrsv => decode_of_opField hop hrsv, fun _ _ idx br hs hr hn =>
    next_of_updateRecord (exec_setb_eq hs hr hn idx br) fun p _ => rebright_eq_tagged br p⟩

/-- Settles O19: the GET after a setter answers the record stored, of which each clause reads the brightness or the colour. -/
theorem perPixelLaws : Obligations.PerPixelLaws := by
  refine fun s n idx hs hr hn => ⟨fun hi => ?_, fun r g b x i hmem => ?_⟩
  · obtain ⟨p, hp⟩ := (hs.count_unique hr hn).record hi
    have hget : Answers (.get idx) s _ _ := ⟨exec_get_eq hr hn hi hp, rfl⟩
    refine ⟨fun x => ?setb, fun r g b => ?setc, fun x => ?colour, fun r g b x => ?setcb⟩
    case setb =>
      obtain ⟨t, u, ht, hu⟩ := (isSetter_setb x).get_after hs hr hn hi hp
      obtain ⟨-, -, -, hbr⟩ := getData_fields (unpack (rebright x p))
      exact ⟨t, u, _, ht, hu, hbr ▸ toNat_brightness_pack ..⟩
    case setc =>
      obtain ⟨t, u, ht, hu⟩ := (isSetter_setc r g b).get_after hs hr hn hi hp
      obtain ⟨-, -, -, hbr₀⟩ := getData_fields (unpack p)
      obtain ⟨-, -, -, hbr₁⟩ := getData_fields (unpack (recolour r g b p))
      exact ⟨t, u, _, _, _, hget, ht, hu, by rw [hbr₀, hbr₁, brightness_recolour]⟩
    case colour =>
      obtain ⟨t, u, ht, hu⟩ := (isSetter_setb x).get_after hs hr hn hi hp
      exact ⟨t, u, _, _, _, hget, ht, hu, (getData_colour _).trans (getData_colour (unpack p)).symm⟩
    case setcb =>
      obtain ⟨t, u, ht, hu⟩ := (isSetter_setcb r g b x).get_after hs hr hn hi hp
      obtain ⟨hred, hgreen, hblue, hbr⟩ := getData_fields (unpack (pack r g b x))
      exact ⟨t, u, _, ht, hu, hred, hgreen, hblue, hbr ▸ toNat_brightness_pack ..⟩
  · simp only [List.mem_cons, List.not_mem_nil, or_false] at hmem
    rcases hmem with rfl | rfl | rfl | rfl
    · exact ⟨fun t h j _ => by rw [exec_get_pix h], exec_get_of_le hr hn⟩
    · exact ⟨fun t h j => (exec_setcb_record hs h).getElem?_ne, (isSetter_setcb r g b x).exec_of_le hs hr hn⟩
    · exact ⟨fun t h j => (exec_setc_record h).getElem?_ne, (isSetter_setc r g b).exec_of_le hs hr hn⟩
    · exact ⟨fun t h j => (exec_setb_record h).getElem?_ne, (isSetter_setb x).exec_of_le hs hr hn⟩

end Sys2Proof.Machine


/-! # The whole-strip commands' family: CLEAR, FILLCB, FILLC, FILLB (42_whole_strip.md)

Every whole-strip command puts `eachLane f` of the store in the store's place (`IsFill`), and the lanes of `f`, run one after the
other in any order of the indices, leave `eachLane f` of it too. -/

namespace Sys2Proof.Machine

section Lanes
variable {records : List Pixel} {order : List Nat} {n : Index}

/-! ## The lanes of the store -/

theorem lane_eq_modify (f : Pixel → Pixel) (i : Nat) (records : List Pixel) : lane f i records = records.modify i f := by
  unfold lane
  cases hp : records[i]? with
  | none => rw [List.modify_eq_set_getElem?, hp]; rfl
  | some p => exact writeRecord_eq_modify hp

/-- The lanes at distinct indices: each of their records is replaced by `f` of what it was, and no other (R155). -/
theorem getElem?_foldl_lane (hd : order.Nodup) (f : Pixel → Pixel) (records : List Pixel) (j : Nat) :
    (order.foldl (fun records i => lane f i records) records)[j]? =
      if j ∈ order then records[j]?.map f else records[j]? := by
  induction order generalizing records with
  | nil => rfl
  | cons i order ih =>
    obtain ⟨hi, hd⟩ := List.nodup_cons.mp hd
    rw [List.foldl_cons, ih hd, lane_eq_modify]
    by_cases hj : i = j
    · subst hj
      simp [hi]
    · simp [hj, Ne.symm hj]

/-- Lanes do not depend on their order, as long as each runs once. -/
theorem foldl_lane_of_perm (h : order.Perm (List.range records.length)) (f : Pixel → Pixel) :
    order.foldl (fun records i => lane f i records) records = eachLane f records := by
  have hmem : ∀ j, j ∈ order ↔ j < records.length := fun j => h.mem_iff.trans List.mem_range
  refine List.ext_getElem? fun j => ?_
  rw [getElem?_foldl_lane (h.nodup_iff.mpr List.nodup_range), eachLane, List.getElem?_map]
  by_cases hj : j < records.length
  · rw [if_pos ((hmem j).mpr hj)]
  · rw [if_neg (mt (hmem j).mp hj), List.getElem?_eq_none (not_lt.mp hj), Option.map_none]

/-- A lane that does not read its record stores the same one everywhere. -/
theorem eachLane_const (p : Pixel) (hl : records.length = n.toNat) :
    eachLane (fun _ => p) records = List.replicate n.toNat p := by
  rw [eachLane, List.map_const', hl]

end Lanes

section Fills
variable {s t : State} {i : Instr} {f g : Pixel → Pixel}

/-! ## A whole-strip command is its lanes -/

/-- In every Ready block the command replaces each record by `f` of itself. -/
def IsFill (i : Instr) (f : Pixel → Pixel) : Prop :=
  ∀ s : State, s.Inv → s.life = .ready → exec i s = .next (respondOk 0 (s.setPix (eachLane f s.pix)))

theorem isFill_clear : IsFill .clear fun _ => off := by
  intro s hs hr
  obtain ⟨n, hn⟩ := hs.sized hr
  rw [exec_clear_eq hr hn.numLeds, eachLane_const off hn.length]

theorem isFill_fillcb (r g b br : Byte) : IsFill (.fillcb r g b br) fun _ => pack r g b br := by
  intro s hs hr
  obtain ⟨n, hn⟩ := hs.sized hr
  rw [exec_fillcb_eq hr hn.numLeds, eachLane_const _ hn.length]

theorem isFill_fillc (r g b : Byte) : IsFill (.fillc r g b) (recolour r g b) := by
  intro s hs hr
  obtain ⟨n, hn⟩ := hs.sized hr
  exact exec_fillc_eq hs hr hn.numLeds r g b

theorem isFill_fillb (br : Byte) : IsFill (.fillb br) (rebright br) := by
  intro s hs hr
  obtain ⟨n, hn⟩ := hs.sized hr
  exact exec_fillb_eq hs hr hn.numLeds br

/-- The fields a fill leaves; what `g` makes of records that are not in the store does not matter. -/
theorem IsFill.exec_eq_map (hi : IsFill i f) (hs : s.Inv) (hr : s.life = .ready) (hf : ∀ p ∈ s.pix, f p = g p) :
    exec i s = .next { s with pix := s.pix.map g, responses := s.responses ++ [0#64] } := by
  rw [hi s hs hr, respondOk_zero_setPix, eachLane, List.map_congr_left hf]

theorem IsFill.pix_eq_foldl_lane (hi : IsFill i f) (hs : s.Inv) (hr : s.life = .ready) (h : exec i s = .next t)
    {order : List Nat} (ho : order.Perm (List.range s.pix.length)) :
    t.pix = order.foldl (fun records k => lane f k records) s.pix := by
  rw [hi s hs hr] at h
  cases h
  exact (foldl_lane_of_perm ho f).symm

/-- Outside Ready no command writes a lane: it is refused (R218). -/
theorem exec_pixels_pix_of_not_ready (hi : actsOnPixels i = true) (hr : s.life ≠ .ready) (h : exec i s = .next t) :
    t.pix = s.pix := by
  rcases exec_pixels_next hi h with he | ⟨-, rfl⟩
  · exact absurd he.ready hr
  · rfl

end Fills

/-! # The statements of the whole-strip commands' family -/

/-- Settles O25: the lanes in any order leave `eachLane` of the store, which is what each of the four commands leaves. -/
theorem lanesMayRunInAnyOrder : Obligations.LanesMayRunInAnyOrder := by
  intro s r g b br hs c hc
  have hfill : IsFill c.1 c.2 ∧ actsOnPixels c.1 = true := by
    simp only [List.mem_cons, List.not_mem_nil, or_false] at hc
    rcases hc with rfl | rfl | rfl | rfl
    · exact ⟨isFill_clear, rfl⟩
    · exact ⟨isFill_fillcb r g b br, rfl⟩
    · exact ⟨isFill_fillc r g b, rfl⟩
    · exact ⟨isFill_fillb br, rfl⟩
  obtain ⟨hfill, hpix⟩ := hfill
  obtain ⟨t, ht⟩ := exec_goes_on hs c.1
  exact ⟨t, ht, fun hr => exec_pixels_pix_of_not_ready hpix hr ht, fun hr _ ho => hfill.pix_eq_foldl_lane hs hr ht ho⟩

/-- Settles O21: CLEAR reads no record, so Ready and the count are enough. -/
theorem clearSwitchesEveryPixelOff : Obligations.ClearSwitchesEveryPixelOff := by
  refine ⟨fun w hop hrsv => decode_of_opField hop hrsv, fun s n hr hn => ?_⟩
  rw [exec_clear_eq hr hn, respondOk_zero_setPix, off]

/-- Settles O22: the record stored everywhere is the packed operands. -/
theorem fillcbStoresOneRecordEverywhere : Obligations.FillcbStoresOneRecordEverywhere := by
  refine ⟨fun w hop hrsv => decode_of_opField hop hrsv, fun s n r g b br hr hn => ?_⟩
  rw [exec_fillcb_eq hr hn, respondOk_zero_setPix, pack_eq_tagged]

/-- Settles O23: every record is legal under the invariant, so recolouring keeps its byte 0. -/
theorem fillcKeepsEachBrightness : Obligations.FillcKeepsEachBrightness :=
  ⟨fun _ hop hrsv => decode_of_opField hop hrsv, fun _ r g b hs hr =>
    (isFill_fillc r g b).exec_eq_map hs hr fun p hp => recolour_of_legal r g b (hs.legal p hp)⟩

/-- Settles O24: each record is packed from its own colour and the new brightness. -/
theorem fillbKeepsEachColour : Obligations.FillbKeepsEachColour :=
  ⟨fun _ hop hrsv => decode_of_opField hop hrsv, fun _ br hs hr =>
    (isFill_fillb br).exec_eq_map hs hr fun p _ => rebright_eq_tagged br p⟩

end Sys2Proof.Machine


/-! # The shift and rotate commands' family: PUSHF, PUSHB, ROTL, ROTR (43_shift_rotate.md)

Each of the four commands puts a function of the store in the store's place (`IsMove`), for a rotation the library's
`List.rotate`. A run of them composes these functions (`RunMoves`), so the laws on repeated commands are equations of lists. The loops of the
pseudocode are read position by position. -/

namespace Sys2Proof.Machine

section Shifts
variable {p : Pixel} {records : List Pixel} {j : Nat}

/-! ## The shifted store -/

theorem getElem?_shiftBack (p : Pixel) (records : List Pixel) (j : Nat) :
    (shiftBack p records)[j]? = if j < records.length then (p :: records)[j]? else none :=
  List.getElem?_take

theorem getElem?_shiftFront (p : Pixel) (records : List Pixel) (j : Nat) :
    (shiftFront p records)[j]? = (records ++ [p])[j + 1]? := by
  rw [shiftFront, List.getElem?_drop, Nat.add_comm]

theorem getElem?_shiftBack_zero (p : Pixel) (hl : 0 < records.length) : (shiftBack p records)[0]? = some p := by
  rw [getElem?_shiftBack, if_pos hl, List.getElem?_cons_zero]

theorem getElem?_shiftBack_pos (p : Pixel) (hj : 1 ≤ j) (hl : j < records.length) :
    (shiftBack p records)[j]? = records[j - 1]? := by
  rw [getElem?_shiftBack, if_pos hl, List.getElem?_cons, if_neg (Nat.ne_of_gt hj)]

theorem getElem?_shiftFront_last (p : Pixel) (hl : 0 < records.length) :
    (shiftFront p records)[records.length - 1]? = some p := by
  rw [getElem?_shiftFront, Nat.sub_add_cancel hl, List.getElem?_concat_length]

theorem getElem?_shiftFront_of_lt (p : Pixel) (hj : j + 1 < records.length) :
    (shiftFront p records)[j]? = records[j + 1]? := by
  rw [getElem?_shiftFront, List.getElem?_append_left hj]

/-- Shifting the first record in at the back is a rotation (R173). -/
theorem shiftFront_eq_rotate (hp : records[0]? = some p) : shiftFront p records = records.rotate 1 := by
  cases records with
  | nil => cases hp
  | cons x xs =>
    obtain rfl : x = p := by simpa using hp
    rw [List.rotate_cons_succ, List.rotate_zero]
    rfl

/-- Shifting the last record in at the front is a rotation by one less than the length (R174). -/
theorem shiftBack_eq_rotate (hp : records[records.length - 1]? = some p) :
    shiftBack p records = records.rotate (records.length - 1) := by
  rcases List.eq_nil_or_concat' records with rfl | ⟨xs, x, rfl⟩
  · cases hp
  · obtain rfl : x = p := by simpa using hp
    simp [shiftBack, List.rotate_append_length_eq]

end Shifts

section Loops
variable {p : Pixel} {records : List Pixel} {m a : Nat}

/-! ## The loops of the pseudocode -/

theorem copyRecord_eq_set {dst src : Nat} (hp : records[src]? = some p) :
    copyRecord dst src records = records.set dst p := by
  rw [copyRecord, hp]; rfl

@[simp] theorem length_copyRecord (dst src : Nat) (records : List Pixel) :
    (copyRecord dst src records).length = records.length := by
  unfold copyRecord
  split
  · exact length_writeRecord ..
  · rfl

theorem getElem?_copyRecord {dst src : Nat} (hd : dst < records.length) (hs : src < records.length) (j : Nat) :
    (copyRecord dst src records)[j]? = if j = dst then records[src]? else records[j]? := by
  rw [copyRecord_eq_set (List.getElem?_eq_getElem hs), List.getElem?_set, List.getElem?_eq_getElem hs]
  by_cases hj : j = dst
  · subst hj; simp [hd]
  · rw [if_neg hj, if_neg (Ne.symm hj)]

/-- PUSHF's loop over `m` positions: each gets the record before it, which the descending order has not yet overwritten (R171). -/
theorem getElem?_forDown_copy (hm : m < records.length) (j : Nat) :
    (forDown (fun i => copyRecord i (i - 1)) 1 m records)[j]? =
      if 1 ≤ j ∧ j ≤ m then records[j - 1]? else records[j]? := by
  induction m generalizing records with
  | zero => rw [forDown, if_neg (by omega)]
  | succ m ih =>
    have hcopy := getElem?_copyRecord (records := records) (dst := 1 + m) (src := 1 + m - 1) (by omega) (by omega)
    rw [forDown, ih (by rw [length_copyRecord]; omega), hcopy, hcopy]
    rcases lt_trichotomy j (1 + m) with hj | rfl | hj
    · rw [if_neg (by omega : ¬ j - 1 = 1 + m), if_neg hj.ne]
      exact if_congr (by omega) rfl rfl
    · rw [if_neg (by omega), if_pos rfl, if_pos (by omega)]
    · rw [if_neg (by omega), if_neg hj.ne', if_neg (by omega)]

/-- PUSHB's loop over `m` positions from `a`: each gets the record after it, which the ascending order has not yet
overwritten (R172). -/
theorem getElem?_forUp_copy (hm : a + m < records.length) (j : Nat) :
    (forUp (fun i => copyRecord i (i + 1)) a m records)[j]? =
      if a ≤ j ∧ j < a + m then records[j + 1]? else records[j]? := by
  induction m generalizing a records with
  | zero => rw [forUp, if_neg (by omega)]
  | succ m ih =>
    have hcopy := getElem?_copyRecord (records := records) (dst := a) (src := a + 1) (by omega) (by omega)
    rw [forUp, ih (by rw [length_copyRecord]; omega), hcopy, hcopy]
    rcases lt_trichotomy j a with hj | rfl | hj
    · rw [if_neg (by omega), if_neg hj.ne, if_neg (by omega)]
    · rw [if_neg (by omega), if_pos rfl, if_pos (by omega)]
    · rw [if_neg (by omega : ¬ j + 1 = a), if_neg hj.ne']
      exact if_congr (by omega) rfl rfl

theorem loopPushFront_eq_shiftBack (p : Pixel) (records : List Pixel) :
    loopPushFront records.length p records = shiftBack p records := by
  cases records with
  | nil => rfl
  | cons x xs =>
    refine List.ext_getElem? fun j => ?_
    rw [loopPushFront, writeRecord, List.getElem?_set', getElem?_forDown_copy (by simp), getElem?_shiftBack]
    cases j with
    | zero => simp
    | succ j =>
      by_cases hj : j < xs.length
      · simp [Nat.succ_le_of_lt hj]
      · simp [hj]

theorem loopPushBack_eq_shiftFront (p : Pixel) (records : List Pixel) :
    loopPushBack records.length p records = shiftFront p records := by
  cases records with
  | nil => rfl
  | cons x xs =>
    refine List.ext_getElem? fun j => ?_
    rw [loopPushBack, writeRecord, List.getElem?_set', getElem?_forUp_copy (by simp), getElem?_shiftFront]
    rcases lt_trichotomy j xs.length with hj | rfl | hj
    · simp [hj, hj.ne', List.getElem?_append_left]
    · simp
    · have hend : (x :: xs).length ≤ j := hj
      rw [if_neg (by simp; omega), if_neg (by omega), List.getElem?_eq_none hend, List.getElem?_eq_none (by simpa using hj)]

end Loops

section Moves
variable {s : State} {n : Index} {i : Instr} {cs : List Instr} {f g h : List Pixel → List Pixel}

/-! ## A command that moves the store -/

/-- In every Ready block the command puts `f` of the store in the store's place. -/
def IsMove (i : Instr) (f : List Pixel → List Pixel) : Prop :=
  ∀ s : State, s.Inv → s.life = .ready → exec i s = .next (respondOk 0 (s.setPix (f s.pix)))

theorem isMove_pushf (r g b br : Byte) : IsMove (.pushf r g b br) (shiftBack (pack r g b br)) := by
  intro s hs hr
  obtain ⟨n, hn⟩ := hs.sized hr
  exact exec_pushf_eq hs hr hn.numLeds r g b br

theorem isMove_pushb (r g b br : Byte) : IsMove (.pushb r g b br) (shiftFront (pack r g b br)) := by
  intro s hs hr
  obtain ⟨n, hn⟩ := hs.sized hr
  exact exec_pushb_eq hs hr hn.numLeds r g b br

/-- The record taken off one end is legal under the invariant, so it is put back unchanged at the other. -/
theorem isMove_rotl : IsMove .rotl fun records => records.rotate 1 := by
  intro s hs hr
  obtain ⟨n, hn⟩ := hs.sized hr
  obtain ⟨p, hp⟩ := hn.record hn.positive
  rw [exec_rotl_eq hs hr hn.numLeds hp, repack_unpack_of_legal (hn.legal p (List.mem_of_getElem? hp)),
    shiftFront_eq_rotate hp]

theorem isMove_rotr : IsMove .rotr fun records => records.rotate (records.length - 1) := by
  intro s hs hr
  obtain ⟨n, hn⟩ := hs.sized hr
  obtain ⟨p, hp⟩ := hn.record (Nat.sub_one_lt_of_lt hn.positive)
  rw [exec_rotr_eq hs hr hn.numLeds hp, repack_unpack_of_legal (hn.legal p (List.mem_of_getElem? hp)),
    shiftBack_eq_rotate (hn.length.symm ▸ hp)]

/-- The fields a move leaves. -/
theorem IsMove.exec_eq (hi : IsMove i f) (hs : s.Inv) (hr : s.life = .ready) :
    exec i s = .next { s with pix := f s.pix, responses := s.responses ++ [0#64] } := by
  rw [hi s hs hr, respondOk_zero_setPix]

/-! ## A run of such commands -/

/-- In every Ready block the run goes to its end, puts `f` of the store in the store's place, keeps the invariant, and changes
nothing but the store and the responses (R175). -/
def RunMoves (cs : List Instr) (f : List Pixel → List Pixel) : Prop :=
  ∀ s : State, s.Inv → s.life = .ready → ∃ t, execAll cs s = .next t ∧ t.pix = f s.pix ∧
    t = { s with pix := t.pix, responses := t.responses } ∧ t.Inv

theorem RunMoves.nil (hf : ∀ records, f records = records) : RunMoves [] f :=
  fun s hs _ => ⟨s, rfl, (hf s.pix).symm, rfl, hs⟩

theorem RunMoves.cons (hi : IsMove i g) (hcs : RunMoves cs h) (hf : ∀ records, f records = h (g records)) :
    RunMoves (i :: cs) f := by
  intro s hs hr
  have hnext := hi s hs hr
  obtain ⟨t, ht, hpix, hframe, hinv⟩ := hcs _ ((exec_effect hnext).keeps_inv hs) hr
  refine ⟨t, ?_, hpix.trans (hf s.pix).symm, hframe, hinv⟩
  rw [execAll, hnext]
  exact ht

theorem runMoves_rotl (k : Nat) : RunMoves (List.replicate k .rotl) (·.rotate k) := by
  induction k with
  | zero => exact .nil List.rotate_zero
  | succ k ih => exact .cons isMove_rotl ih fun records => by rw [List.rotate_rotate, Nat.add_comm]

theorem runMoves_rotr (k : Nat) :
    RunMoves (List.replicate k .rotr) fun records => records.rotate ((records.length - 1) * k) := by
  induction k with
  | zero => exact .nil List.rotate_zero
  | succ k ih =>
    exact .cons isMove_rotr ih fun records => by
      rw [List.rotate_rotate, List.length_rotate, Nat.mul_succ, Nat.add_comm]

/-- The records pushed at the front stand there in reverse order, and as many of the old ones are lost (R175 (d)). -/
theorem runMoves_pushf (colours : List Colour) :
    RunMoves (colours.map fun c => .pushf c.r c.g c.b c.brightness)
      fun records => ((colours.map repack).reverse ++ records).take records.length := by
  induction colours with
  | nil => exact .nil fun _ => List.take_length
  | cons c colours ih =>
    refine .cons (isMove_pushf c.r c.g c.b c.brightness) ih fun records => ?_
    rw [length_shiftBack, shiftBack, ← repack, List.map_cons, List.reverse_cons, List.append_assoc,
      List.singleton_append, List.take_append, List.take_append, List.take_take, Nat.min_eq_left (Nat.sub_le ..)]

/-- The records pushed at the back stand there in order, and as many of the old ones are lost (R175 (d)). -/
theorem runMoves_pushb (colours : List Colour) :
    RunMoves (colours.map fun c => .pushb c.r c.g c.b c.brightness)
      fun records => (records ++ colours.map repack).drop colours.length := by
  induction colours with
  | nil => exact .nil List.append_nil
  | cons c colours ih =>
    refine .cons (isMove_pushb c.r c.g c.b c.brightness) ih fun records => ?_
    rw [shiftFront, ← repack, ← List.drop_append_of_le_length (by simp), List.drop_drop, List.append_assoc,
      List.singleton_append, List.map_cons, List.length_cons, Nat.add_comm 1]

/-- A run that puts the same store back leaves the block as it was. -/
theorem RunMoves.restores (hcs : RunMoves cs f) (hf : f s.pix = s.pix) (hs : s.Inv) (hr : s.life = .ready) :
    ∃ t, execAll cs s = .next t ∧ SameBlock s t := by
  obtain ⟨t, ht, hpix, hframe, -⟩ := hcs s hs hr
  rw [hf] at hpix
  refine ⟨t, ht, ?_⟩
  rw [hframe]
  exact ⟨rfl, rfl, rfl, hpix, rfl, rfl⟩

end Moves

/-! ## Indices around the strip -/

/-- `k` rotations by `N-1` are one by `N - k mod N`: both undo a rotation by `k`. -/
theorem add_pred_mul_mod {n : Nat} (hn : 1 ≤ n) (i k : Nat) : (i + (n - 1) * k) % n = (i + n - k % n) % n := by
  obtain ⟨m, rfl⟩ := Nat.exists_eq_add_of_le' hn
  refine Nat.ModEq.add_right_cancel' k ?_
  have hlt : k % (m + 1) < m + 1 := Nat.mod_lt _ m.succ_pos
  have hdiv : (m + 1) * (k / (m + 1)) + k % (m + 1) = k := Nat.div_add_mod k (m + 1)
  calc i + (m + 1 - 1) * k + k = i + (m + 1) * k := by rw [Nat.add_sub_cancel, Nat.succ_mul, Nat.add_assoc]
    _ ≡ i [MOD m + 1] := by simp [Nat.ModEq]
    _ ≡ i + (m + 1) * (1 + k / (m + 1)) [MOD m + 1] := by simp [Nat.ModEq]
    _ = i + (m + 1) - k % (m + 1) + k := by rw [Nat.mul_add]; omega

/-! # The statements of the shift and rotate commands' family -/

/-- Settles O30: each loop, read position by position, has copied the neighbour that the parallel assignment names. -/
theorem shiftLoopsRefineTheirMeaning : Obligations.ShiftLoopsRefineTheirMeaning :=
  fun records p => ⟨loopPushFront_eq_shiftBack p records, loopPushBack_eq_shiftFront p records⟩

/-- Settles O31: `k` commands rotate the list of records, by `k` or by `k` times `N-1`. -/
theorem rotationLaws : Obligations.RotationLaws := by
  intro s n hs hr hn
  have hsized := hs.count_unique hr hn
  have hl := hsized.length
  refine ⟨fun k => ?_, fun k => ?_, fun c hc => ?_⟩
  · obtain ⟨t, ht, hpix, hframe, hinv⟩ := runMoves_rotl k s hs hr
    refine ⟨t, ht, by rw [hpix, List.length_rotate, hl], hframe, hinv, fun i hi => ?_⟩
    rw [hpix, List.getElem?_rotate (hl.symm ▸ hi), hl]
  · obtain ⟨t, ht, hpix, hframe, hinv⟩ := runMoves_rotr k s hs hr
    refine ⟨t, ht, by rw [hpix, List.length_rotate, hl], hframe, hinv, fun i hi => ?_⟩
    rw [hpix, List.getElem?_rotate (hl.symm ▸ hi), hl, add_pred_mul_mod hsized.positive]
  · have hturn : 1 + (s.pix.length - 1) = s.pix.length := Nat.add_sub_of_le (hl ▸ hsized.positive)
    simp only [List.mem_cons, List.not_mem_nil, or_false] at hc
    rcases hc with rfl | rfl | rfl | rfl
    · exact (runMoves_rotl _).restores (by rw [← hl, List.rotate_length]) hs hr
    · exact (runMoves_rotr _).restores (by rw [← hl, Nat.mul_comm, List.rotate_length_mul]) hs hr
    · refine (RunMoves.cons isMove_rotl (runMoves_rotr 1) fun _ => rfl).restores ?_ hs hr
      rw [List.rotate_rotate, List.length_rotate, Nat.mul_one, hturn, List.rotate_length]
    · refine (RunMoves.cons isMove_rotr (runMoves_rotl 1) fun _ => rfl).restores ?_ hs hr
      rw [List.rotate_rotate, Nat.add_comm, hturn, List.rotate_length]

/-- Settles O32: the first push of `N` stands last after PUSHF and first after PUSHB, and no old record is left. -/
theorem pushesReplaceTheStrip : Obligations.PushesReplaceTheStrip := by
  intro s n cs hs hr hn hcs
  have hl : s.pix.length = cs.length := (hs.count_unique hr hn).length.trans hcs.symm
  refine ⟨?_, ?_⟩
  · obtain ⟨t, ht, hpix, hframe, hinv⟩ := runMoves_pushf cs s hs hr
    refine ⟨t, ht, hframe, hinv, fun i hi => ?_⟩
    simp only [hpix, hl]
    rw [List.take_left' (by simp), List.getElem?_reverse (by simpa [hcs] using hi), List.getElem?_map,
      List.length_map, hcs]
  · obtain ⟨t, ht, hpix, hframe, hinv⟩ := runMoves_pushb cs s hs hr
    refine ⟨t, ht, hframe, hinv, fun i _ => ?_⟩
    simp only [hpix]
    rw [List.drop_left' hl, List.getElem?_map]

/-- Settles O26: the store is shifted back behind the packed operands. -/
theorem pushfShiftsTowardTheBack : Obligations.PushfShiftsTowardTheBack := by
  refine ⟨fun w hop hrsv => decode_of_opField hop hrsv, fun s n r g b br hs hr hn => ?_⟩
  have hsized := hs.count_unique hr hn
  rw [← hsized.length, ← pack_eq_tagged]
  exact ⟨_, (isMove_pushf r g b br).exec_eq hs hr, length_shiftBack ..,
    getElem?_shiftBack_zero _ (hsized.length ▸ hsized.positive), fun i => getElem?_shiftBack_pos _⟩

/-- Settles O27: the store is shifted to the front before the packed operands. -/
theorem pushbShiftsTowardTheFront : Obligations.PushbShiftsTowardTheFront := by
  refine ⟨fun w hop hrsv => decode_of_opField hop hrsv, fun s n r g b br hs hr hn => ?_⟩
  have hsized := hs.count_unique hr hn
  rw [← hsized.length, ← pack_eq_tagged]
  exact ⟨_, (isMove_pushb r g b br).exec_eq hs hr, length_shiftFront ..,
    getElem?_shiftFront_last _ (hsized.length ▸ hsized.positive), fun i => getElem?_shiftFront_of_lt _⟩

/-- Settles O28: the store is rotated by one. -/
theorem rotlMovesTheFrontToTheBack : Obligations.RotlMovesTheFrontToTheBack := by
  refine ⟨fun w hop hrsv => decode_of_opField hop hrsv, fun s n hs hr hn => ?_⟩
  rw [← (hs.count_unique hr hn).length]
  exact ⟨_, isMove_rotl.exec_eq hs hr, List.length_rotate .., fun i hi => List.getElem?_rotate hi⟩

/-- Settles O29: the store is rotated by `N-1`. -/
theorem rotrMovesTheBackToTheFront : Obligations.RotrMovesTheBackToTheFront := by
  refine ⟨fun w hop hrsv => decode_of_opField hop hrsv, fun s n hs hr hn => ?_⟩
  have hsized := hs.count_unique hr hn
  rw [← hsized.length]
  refine ⟨_, isMove_rotr.exec_eq hs hr, List.length_rotate .., fun i hi => ?_⟩
  rw [List.getElem?_rotate hi, Nat.add_sub_assoc (hsized.length ▸ hsized.positive)]

end Sys2Proof.Machine


/-! # The framer's family: the footer's length and the frame of a Ready block (44_framer.md) -/

namespace Sys2Proof.Machine

section Framer
variable {n : Index} {records : List Pixel} {k : Nat}

/-! ## The footer -/

/-- The footer length of a 16-bit count fits the 13 bits of FOOTER_LEN (R191). -/
theorem toNat_footerLenOf (n : Index) : (footerLenOf n).toNat = footerLenNat n.toNat := by
  rw [footerLenOf, BitVec.toNat_ofNat, footerLenNat]
  omega

/-- The integer division of R191 is the count over 16 rounded up. -/
theorem ceil_div_sixteen (m : Nat) : ⌈(m : ℚ) / 16⌉ = (footerLenNat m : ℤ) := by
  have hceil := Rat.ceil_natCast_div_natCast m 16
  rw [Nat.cast_ofNat] at hceil
  rw [hceil, footerLenNat]
  omega

/-- A strip has at least one footer byte (R193). -/
theorem footerLenNat_pos {m : Nat} (hm : 1 ≤ m) : 1 ≤ footerLenNat m := by
  rw [footerLenNat]
  omega

@[simp] theorem length_footerBytes (n : Index) : (footerBytes (footerLenOf n)).length = footerLenNat n.toNat := by
  rw [footerBytes, List.length_replicate, toNat_footerLenOf]

/-! ## The frame, byte by byte -/

theorem frameByteOf_header (records : List Pixel) (m : Nat) (hk : k < 4) : frameByteOf m records k = some 0x00#8 :=
  if_pos (by omega)

theorem frameByteOf_pixels (records : List Pixel) {m a : Nat} (ha : a < 4 * m) :
    frameByteOf m records (4 + a) = readByte records a := by
  rw [frameByteOf, if_neg (by omega), if_pos (by omega), Nat.add_sub_cancel_left, readByte]

theorem frameByteOf_footer (records : List Pixel) {m j : Nat} (hj : j < footerLenNat m) :
    frameByteOf m records (4 + 4 * m + j) = some 0xFF#8 := by
  rw [frameByteOf, if_neg (by omega), if_neg (by omega), if_pos (by rw [frameLenOf]; omega)]

theorem frameByteOf_beyond (records : List Pixel) {m : Nat} (hm : 1 ≤ m) (hk : frameLenOf m ≤ k) :
    frameByteOf m records k = none := by
  rw [frameLenOf] at hk
  rw [frameByteOf, frameLenOf, if_neg (by omega), if_neg (by omega), if_neg (by omega)]

/-- The frame of a strip of `n` records, header and footer as R192 and R193 give them. -/
def stripFrame (n : Index) (records : List Pixel) : List Byte :=
  frameOf (List.replicate 4 0x00#8) (pixBytesOf records) (footerBytes (footerLenOf n))

/-- In a Ready block HDR, PIX and FTR make the frame of its strip. -/
theorem State.Inv.frame_eq {s : State} (hs : s.Inv) (hn : s.Sized n) :
    frameOf s.hdr.toList (pixBytesOf s.pix) s.ftr = stripFrame n s.pix := by
  rw [hs.hdr, hn.ftr]
  rfl

/-- The frame has the length of R197. -/
theorem length_stripFrame (hl : records.length = n.toNat) : (stripFrame n records).length = frameLenOf n.toNat := by
  simp [stripFrame, frameOf, frameLenOf, hl]
  omega

/-- The frame has the bytes of R196: its three parts one behind the other. -/
theorem getElem?_stripFrame (hl : records.length = n.toNat) (hn : 1 ≤ n.toNat) (i : Nat) :
    (stripFrame n records)[i]? = frameByteOf n.toNat records i := by
  have hhdr : (List.replicate 4 0x00#8).length = 4 := List.length_replicate
  have hpix : (pixBytesOf records).length = 4 * n.toNat := by rw [length_pixBytesOf, hl]
  by_cases hbeyond : frameLenOf n.toNat ≤ i
  · rw [frameByteOf_beyond records hn hbeyond, List.getElem?_eq_none (by rwa [length_stripFrame hl])]
  rw [frameLenOf] at hbeyond
  rw [stripFrame, frameOf, List.append_assoc]
  by_cases hheader : i < 4
  · rw [frameByteOf_header records _ hheader, List.getElem?_append_left (by omega), List.getElem?_replicate_of_lt hheader]
  obtain ⟨a, rfl⟩ := Nat.exists_eq_add_of_le (Nat.le_of_not_lt hheader)
  rw [List.getElem?_append_right (by omega), hhdr, Nat.add_sub_cancel_left]
  by_cases hpixels : a < 4 * n.toNat
  · rw [frameByteOf_pixels records hpixels, List.getElem?_append_left (by omega), getElem?_pixBytesOf]
  obtain ⟨j, rfl⟩ := Nat.exists_eq_add_of_le (Nat.le_of_not_lt hpixels)
  have hj : j < footerLenNat n.toNat := by omega
  rw [← Nat.add_assoc, frameByteOf_footer records hj, List.getElem?_append_right (by omega), hpix,
    Nat.add_sub_cancel_left, footerBytes, toNat_footerLenOf, List.getElem?_replicate_of_lt hj]

/-- The last byte is the last footer byte: the footer is never empty (R193). -/
theorem getLast?_stripFrame (hl : records.length = n.toNat) (hn : 1 ≤ n.toNat) :
    (stripFrame n records).getLast? = some 0xFF#8 := by
  have hpos := footerLenNat_pos hn
  have hlast : frameLenOf n.toNat - 1 = 4 + 4 * n.toNat + (footerLenNat n.toNat - 1) := by rw [frameLenOf]; omega
  rw [List.getLast?_eq_getElem?, length_stripFrame hl, hlast, getElem?_stripFrame hl hn, frameByteOf_footer records (by omega)]

/-- A brightness byte with its tag is at least `0xE0` (R23, R110). -/
theorem Pixel.le_byte0_of_legal {p : Pixel} (hp : p.legal = true) : 0xE0 ≤ p.byte0.toNat := by
  have htag := congrArg BitVec.toNat (Pixel.legal_iff.mp hp)
  simp only [BitVec.extractLsb'_toNat, Nat.shiftRight_eq_div_pow, BitVec.toNat_ofNat] at htag
  omega

end Framer

/-- Settles O12: the sum is a natural number and its quotient fits 13 bits; the spec's table is evaluated. -/
theorem footerLengthDoesNotWrap : Obligations.FooterLengthDoesNotWrap := by
  refine ⟨fun n => ⟨toNat_footerLenOf n, ?_⟩, by decide⟩
  rw [toNat_footerLenOf, ceil_div_sixteen]

/-- Settles O13: the frame is its three parts, so its first, fifth and last bytes are bytes 0, 4 and `L - 1` of R196. -/
theorem frameFollowsItsLayout : Obligations.FrameFollowsItsLayout := by
  refine ⟨fun s n hs hr hn => ?_, by decide⟩
  have hsized := hs.count_unique hr hn
  have hbytes := getElem?_stripFrame hsized.length hsized.positive
  obtain ⟨p, hp⟩ := hsized.record hsized.positive
  rw [hs.frame_eq hsized]
  refine ⟨length_stripFrame hsized.length, hbytes, ?_, getLast?_stripFrame hsized.length hsized.positive, p.byte0, ?_,
    Pixel.le_byte0_of_legal (hsized.legal p (List.mem_of_getElem? hp))⟩
  · rw [List.head?_eq_getElem?, hbytes, frameByteOf_header s.pix _ (by decide)]
  · rw [hbytes, frameByteOf_pixels s.pix (a := 0) (by have := hsized.positive; omega), readByte, hp]
    rfl

end Sys2Proof.Machine


/-! # The lifecycle's family: CREATE, SHOW, DESTROY and the table of validity (45_lifecycle_show.md)

A command that is not valid is answered `lifecycleError`, whatever it is; of a valid one `Effect` says what it leaves. CREATE, SHOW and
DESTROY each get the equation of their success, from which their statements read off the fields. -/

namespace Sys2Proof.Machine

section Validity
variable {s t : State} {i : Instr}

/-! ## The table of validity (R218) -/

theorem mnemonic_eq_create_iff : i.mnemonic = .CREATE ↔ ∃ n, i = .create n := by
  cases i <;> simp [Instr.mnemonic]

theorem validIn_uninitialized_iff : validIn i .uninitialized = true ↔ ∃ n, i = .create n := by
  rw [validIn, beq_iff_eq, mnemonic_eq_create_iff]

theorem validIn_ready_iff : validIn i .ready = true ↔ ∀ n, i ≠ .create n := by
  rw [validIn, bne_iff_ne, ne_eq, mnemonic_eq_create_iff, not_exists]

/-! ## A command that is not valid -/

theorem exec_create_of_initialized {n : Index} (hl : s.life ≠ .uninitialized) :
    exec (.create n) s = .next (lifecycleError s) := by
  rw [exec, execCreate, createState]
  cases h : s.life with
  | uninitialized => exact absurd h hl
  | ready => rfl
  | destroyed => rfl

/-- Every command but CREATE begins with the same check (R130, R218). -/
theorem exec_of_not_ready (hi : ∀ n, i ≠ .create n) (hr : s.life ≠ .ready) : exec i s = .next (lifecycleError s) := by
  cases i with
  | create n => exact absurd rfl (hi n)
  | _ => exact whenReady_of_not_ready hr

theorem exec_of_not_valid (h : validIn i s.life = false) : exec i s = .next (lifecycleError s) := by
  by_cases hi : ∃ n, i = .create n
  · obtain ⟨n, rfl⟩ := hi
    refine exec_create_of_initialized fun hl => ?_
    rw [hl] at h
    cases h
  · rw [not_exists] at hi
    refine exec_of_not_ready hi fun hr => ?_
    rw [hr, validIn_ready_iff.mpr hi] at h
    cases h

theorem lifecycleError_eq (s : State) :
    lifecycleError s = { s with faulted := true, responses := s.responses ++ [0x3000000000000000#64] } := by
  rw [← show responseWord .lifecycleError .none 0 0 = 0x3000000000000000#64 by decide]
  rfl

theorem lifecycleRefused_of_not_valid (h : validIn i s.life = false) : LifecycleRefused i s :=
  have hquiet := quiet_lifecycleError s
  ⟨_, exec_of_not_valid h, hquiet.toSameBlock, hquiet.requests, by rw [lifecycleError_eq]⟩

/-! ## A valid command -/

/-- The mark of a misused run is as before, and no LIFECYCLE_ERROR has been answered (R218, R243). -/
structure NoMisuse (s t : State) : Prop where
  mark : t.faulted = s.faulted
  status : ∀ w, t.responses = s.responses ++ [w] → statusField w ≠ Status.lifecycleError.code

theorem noMisuse_respond {st : Status} {sub : SubCause} {e : Byte} {d : BitVec 32} (hst : st ≠ .lifecycleError)
    (hf : t.faulted = s.faulted) (hr : t.responses = s.responses) : NoMisuse s (respond st sub e d t) where
  mark := hf
  status w hw := by
    have hword : responseWord st sub e d = w := by simpa [respond, hr] using hw
    rw [← hword, statusField_responseWord]
    exact mt Status.code_injective hst

theorem noMisuse_hang (hf : t.faulted = s.faulted) (hr : t.responses = s.responses) : NoMisuse s t.hang where
  mark := hf
  status w hw := by simp [hr] at hw

theorem noMisuse_afterWrite (a : WriteAnswer) (hf : t.faulted = s.faulted) (hr : t.responses = s.responses) :
    NoMisuse s (afterWrite a t) := by
  cases a with
  | writeOk => exact noMisuse_respond (by decide) hf hr
  | ioError e => exact noMisuse_respond (by decide) hf hr
  | silent => exact noMisuse_hang hf hr

theorem noMisuse_afterInit (n : Index) (a : InitAnswer) (hf : t.faulted = s.faulted) (hr : t.responses = s.responses) :
    NoMisuse s (afterInit n a t) := by
  cases a with
  | initOk =>
    rw [afterInit]
    rcases buildStrip_cases n t with ⟨-, -, h⟩ | ⟨sub, h⟩
    · rw [h]; exact noMisuse_respond (by decide) hf hr
    · rw [h]; exact noMisuse_respond (by decide) hf hr
  | initError e => exact noMisuse_respond (by decide) hf hr
  | silent => exact noMisuse_hang hf hr

theorem Effect.noMisuse_of_valid (h : Effect s i t) (hv : validIn i s.life = true) : NoMisuse s t := by
  cases h with
  | refused _ hn => simp [hn] at hv
  | pixels _ _ _ he =>
    obtain ⟨-, records, data, rfl, -⟩ := he
    exact noMisuse_respond (by decide) rfl rfl
  | shown _ => exact noMisuse_afterWrite _ rfl rfl
  | destroyed _ => exact noMisuse_respond (by decide) rfl rfl
  | created n _ => exact noMisuse_afterInit n _ rfl rfl

/-! ## The moves of LIFE -/

theorem respondOk_zero_responses (s : State) : (respondOk 0 s).responses = s.responses ++ [0#64] := by
  rw [← responseWord_ok]; rfl

/-- Only a CREATE answered OK and a DESTROY answered OK move LIFE (R210). -/
theorem Effect.life_cases (h : Effect s i t) :
    t.life = s.life ∨
    (s.life = .uninitialized ∧ t.life = .ready ∧ t.responses = s.responses ++ [0#64] ∧ ∃ n, i = .create n) ∨
    (s.life = .ready ∧ t.life = .destroyed ∧ t.responses = s.responses ++ [0#64] ∧ i = .destroy) := by
  cases h with
  | refused _ _ => exact .inl rfl
  | pixels _ _ _ he => obtain ⟨-, records, data, rfl, -⟩ := he; exact .inl rfl
  | shown _ => exact .inl (sameBlock_show ..).life
  | destroyed hl => exact .inr (.inr ⟨hl, rfl, respondOk_zero_responses _, rfl⟩)
  | created n hl =>
    rcases afterInit_cases n s.initDraws.head (requestInit s) with ⟨-, -, ht⟩ | ⟨hb, -⟩
    · rw [ht]
      exact .inr (.inl ⟨hl, rfl, respondOk_zero_responses _, n, rfl⟩)
    · exact .inl hb.life

end Validity

section Create
variable {s : State} {n : Index}

/-! ## CREATE, by the answer of the transport and the count -/

/-- The transport's code stands in RW[39:32], over the word without it (R96). -/
theorem responseWord_err (st : Status) (sub : SubCause) (e : Byte) :
    responseWord st sub e 0 = responseWord st sub 0 0 ||| (e.setWidth 64 <<< 32) := by
  simp [responseWord]

theorem exec_create_of_uninitialized (hl : s.life = .uninitialized) :
    exec (.create n) s = .next (afterInit n s.initDraws.head (requestInit s)) := by
  rw [exec, execCreate, createState, hl]

theorem exec_create_of_initError {e : Byte} (hl : s.life = .uninitialized) (ha : s.initDraws.head = .initError e) :
    exec (.create n) s = .next (respond .constructionError .transportInit e 0 (requestInit s)) := by
  rw [exec_create_of_uninitialized hl, ha, afterInit]

theorem exec_create_of_initOk (hl : s.life = .uninitialized) (ha : s.initDraws.head = .initOk) :
    exec (.create n) s = .next (buildStrip n (requestInit s)) := by
  rw [exec_create_of_uninitialized hl, ha, afterInit]

theorem buildStrip_of_zero (hn : n.toNat = 0) :
    buildStrip n s = respond .constructionError .numLedsZero 0 0 (requestTeardown s) :=
  if_pos hn

theorem buildStrip_of_capacity (hn : n.toNat ≠ 0) (hcap : s.cfg.maxLeds.toNat < n.toNat) :
    buildStrip n s = respond .constructionError .capacity 0 0 (requestTeardown s) := by
  rw [buildStrip, if_neg hn, if_pos hcap]

theorem buildStrip_of_fits (hn : 1 ≤ n.toNat) (hcap : n.toNat ≤ s.cfg.maxLeds.toNat) :
    buildStrip n s = respondOk 0 (s.sizeStrip n) := by
  rw [buildStrip, if_neg (Nat.ne_of_gt hn), if_neg (not_lt.mpr hcap)]

theorem exec_create_of_fits (hl : s.life = .uninitialized) (ha : s.initDraws.head = .initOk) (hn : 1 ≤ n.toNat)
    (hcap : n.toNat ≤ s.cfg.maxLeds.toNat) :
    exec (.create n) s = .next (respondOk 0 ((requestInit s).sizeStrip n)) := by
  rw [exec_create_of_initOk hl ha, buildStrip_of_fits (s := requestInit s) hn hcap]

/-- The fields that a rolled-back CREATE leaves: two requests, and the response (R212). -/
theorem respond_rollback (ha : s.initDraws.head = .initOk) (st : Status) (sub : SubCause) :
    respond st sub 0 0 (requestTeardown (requestInit s)) = { s with
      initDraws := s.initDraws.tail
      requests := s.requests ++ [.init .initOk, .teardown]
      responses := s.responses ++ [responseWord st sub 0 0] } := by
  have hreq : (requestTeardown (requestInit s)).requests = s.requests ++ [.init .initOk, .teardown] := by simp [ha]
  rw [← hreq]
  rfl

theorem footerBytes_eq_replicate (n : Index) :
    footerBytes (footerLenOf n) = List.replicate ((n.toNat + 15) / 16) 0xFF#8 := by
  rw [footerBytes, toNat_footerLenOf, footerLenNat]

theorem pixBytesOf_replicate_off (m : Nat) :
    pixBytesOf (List.replicate m off) = (List.replicate m [0xFF#8, 0x00#8, 0x00#8, 0x00#8]).flatten := by
  rw [pixBytesOf, List.flatMap_def, List.map_replicate]
  rfl

/-- A GET of a pixel that is off answers `(0, 0, 0, 31)` (R117, R131). -/
theorem responseWord_getData_off : responseWord .ok .none 0 (getData (unpack off)) = 0x000000000000001F#64 := by decide

end Create

section Show
variable {s t : State} {n : Index}

/-! ## SHOW in a Ready block -/

theorem exec_show_of_ready (hr : s.life = .ready) (h : exec .showStrip s = .next t) :
    t = afterWrite s.writeDraws.head (requestWrite s.hdr.toList (pixBytesOf s.pix) s.ftr s) := by
  rcases exec_show_next h with ⟨-, ht⟩ | ⟨hl, -⟩
  · exact ht
  · exact absurd hr hl

theorem exec_show_requests_of_ready (hr : s.life = .ready) (h : exec .showStrip s = .next t) :
    t.requests = s.requests ++ [.write s.hdr.toList (pixBytesOf s.pix) s.ftr s.writeDraws.head] := by
  rw [exec_show_of_ready hr h, afterWrite_requests]
  rfl

/-- The invariant gives the header, and the count the footer (R28, R29). -/
theorem exec_show_eq (hs : s.Inv) (hr : s.life = .ready) (hn : s.numLeds = some n) :
    exec .showStrip s = .next (afterWrite s.writeDraws.head (requestWrite [0x00#8, 0x00#8, 0x00#8, 0x00#8] (pixBytesOf s.pix)
      (List.replicate ((n.toNat + 15) / 16) 0xFF#8) s)) := by
  obtain ⟨t, ht⟩ := exec_goes_on hs .showStrip
  rw [ht, exec_show_of_ready hr ht, hs.hdr, (hs.count_unique hr hn).ftr, footerBytes_eq_replicate]
  rfl

end Show

/-! # The statements of the lifecycle's family -/

/-- Settles O34: in Uninitialized the transport's answer and then the count choose one of four equations; elsewhere CREATE is
not valid. -/
theorem createFollowsItsRule : Obligations.CreateFollowsItsRule := by
  refine ⟨fun w hop hrsv => decode_of_opField hop hrsv, fun s n e hl ha => ?initError, fun s n hl ha hn => ?zero,
    fun s n hl ha hn hcap => ?capacity, fun s n hl ha hn hcap => ?fits,
    fun s n hl => lifecycleRefused_of_not_valid (validIn_create_of_initialized hl)⟩
  case initError =>
    have hword : responseWord .constructionError .transportInit 0 0 = 0x1000020000000000#64 := by decide
    rw [exec_create_of_initError hl ha, ← ha, ← hword, ← responseWord_err]
    rfl
  case zero =>
    have hword : responseWord .constructionError .numLedsZero 0 0 = 0x1000010000000000#64 := by decide
    rw [exec_create_of_initOk hl ha, buildStrip_of_zero hn, respond_rollback ha, hword]
  case capacity =>
    have hword : responseWord .constructionError .capacity 0 0 = 0x1000030000000000#64 := by decide
    rw [exec_create_of_initOk hl ha, buildStrip_of_capacity (s := requestInit s) hn hcap, respond_rollback ha, hword]
  case fits =>
    rw [exec_create_of_fits hl ha hn hcap, ← footerBytes_eq_replicate, ← ha, ← responseWord_ok]
    rfl

/-- Settles O35: the invariant is kept, every record of the new store is `off`, and SHOW hands over what is stored. -/
theorem freshStripIsOff : Obligations.FreshStripIsOff := by
  intro s n hs hl ha hn hcap
  have hcreate := exec_create_of_fits hl ha hn hcap
  have hinv := (exec_effect hcreate).keeps_inv hs
  refine ⟨_, hcreate, hinv, fun i hi => ⟨_, exec_get_eq rfl rfl hi (List.getElem?_replicate_of_lt hi), ?_⟩, ?_⟩
  · rw [← responseWord_getData_off]
    rfl
  · refine ⟨_, exec_show_eq hinv rfl rfl, ?_⟩
    rw [afterWrite_requests, ← pixBytesOf_replicate_off]
    rfl

/-- Settles O36: the parts handed over are those of the invariant, and each answer gives its response. -/
theorem showHandsOverTheFrame : Obligations.ShowHandsOverTheFrame := by
  refine ⟨fun w hop hrsv => decode_of_opField hop hrsv,
    fun s hl => lifecycleRefused_of_not_valid (validIn_of_not_ready (by decide) hl),
    fun s n hs hr hn => ⟨fun ha => ?writeOk, fun e ha => ?ioError⟩⟩
  case writeOk =>
    rw [exec_show_eq hs hr hn, ha, afterWrite, ← ha, ← responseWord_ok]
    rfl
  case ioError =>
    have hword : responseWord .ioError .none 0 0 = 0x2000000000000000#64 := by decide
    rw [exec_show_eq hs hr hn, ha, afterWrite, ← ha, ← hword, ← responseWord_err]
    rfl

/-- Settles O37: the first SHOW leaves HDR, PIX and FTR, of which the second makes its request. -/
theorem showRemembersNothing : Obligations.ShowRemembersNothing := by
  intro s t u _ hr ht hu
  have hst := exec_show_sameBlock ht
  refine ⟨hst, exec_show_sameBlock hu, _, _, _, _, t.writeDraws.head, exec_show_requests_of_ready hr ht, ?_⟩
  rw [exec_show_requests_of_ready (hst.life.trans hr) hu, hst.hdr, hst.pix, hst.ftr]

/-- Settles O39: a command that is not valid runs into its lifecycle check, and no effect of a valid one answers so. -/
theorem validityFollowsTheTable : Obligations.ValidityFollowsTheTable := by
  refine ⟨fun i => validIn_uninitialized_iff, fun i => validIn_ready_iff, fun i => rfl, fun i s h => ?_, fun i s t hv h => ?_⟩
  · rw [exec_of_not_valid h, lifecycleError_eq]
  · have hok := (exec_effect h).noMisuse_of_valid hv
    exact ⟨fun hw => hok.status _ hw (by decide), hok.mark⟩

/-- Settles O40: an idle step and an illegal word leave LIFE, and a command moves it as its effect says. -/
theorem lifeMovesOnlyByCreateAndDestroy : Obligations.LifeMovesOnlyByCreateAndDestroy := by
  intro s t h
  rcases step_next h with ⟨rfl, -⟩ | ⟨w, rest, -, hc, ⟨why, -, rfl⟩ | ⟨i, hd, hi⟩⟩
  · exact .inl rfl
  · exact .inl rfl
  · rcases (exec_effect hi).life_cases with hl | ⟨hl, ht, hr, n, rfl⟩ | ⟨hl, ht, hr, rfl⟩
    · exact .inl hl
    · exact .inr (.inl ⟨hl, ht, hr, w, rest, n, hc, hd⟩)
    · exact .inr (.inr ⟨hl, ht, hr, w, rest, hc, hd⟩)

/-- Settles O38: in Ready DESTROY has one equation, and elsewhere it is not valid. -/
theorem destroyReleasesEverything : Obligations.DestroyReleasesEverything := by
  refine ⟨fun w hop hrsv => decode_of_opField hop hrsv,
    fun s hl => lifecycleRefused_of_not_valid (validIn_of_not_ready (by decide) hl), fun s hr => ?_⟩
  rw [exec, execDestroy, whenReady_of_ready hr, ← responseWord_ok]
  rfl

end Sys2Proof.Machine


/-! # The exceptions' family: precise errors, the mark of a misuse, the transport requests, and several instances (60_exceptions.md)

Which requests have been recorded is decided by LIFE as long as each has been answered (`FitsLife`). Of every command `Effect` says what
it records, so the agreement is kept command by command, and the shape of a run's requests is read off it. -/

namespace Sys2Proof.Machine

section Errors
variable {s t : State} {i : Instr}

/-! ## Errors are precise (R250) -/

/-- A command that changes one of the six items is answered OK. -/
theorem Effect.sameBlock_or_ok (h : Effect s i t) :
    SameBlock s t ∨ ∃ data, t.responses = s.responses ++ [responseWord .ok .none 0 data] := by
  cases h with
  | refused _ _ => exact .inl (quiet_lifecycleError s).toSameBlock
  | pixels _ _ _ he => obtain ⟨-, records, data, rfl, -⟩ := he; exact .inr ⟨data, rfl⟩
  | shown _ => exact .inl (sameBlock_show ..)
  | destroyed _ => exact .inr ⟨0, rfl⟩
  | created n _ =>
    rcases afterInit_cases n s.initDraws.head (requestInit s) with ⟨-, -, ht⟩ | ⟨hb, -⟩
    · rw [ht]; exact .inr ⟨0, rfl⟩
    · exact .inl ⟨hb.life, hb.numLeds, hb.footerLen, hb.pix, hb.hdr, hb.ftr⟩

theorem step_sameBlock_or_ok (h : step s = .next t) :
    SameBlock s t ∨ ∃ data, t.responses = s.responses ++ [responseWord .ok .none 0 data] := by
  rcases step_effect h with hq | ⟨i, he⟩
  · exact .inl hq.toSameBlock
  · exact he.sameBlock_or_ok.imp_left (quiet_takeCommand s).toSameBlock.trans

/-! ## The mark of a misuse (R243) -/

theorem noMisuse_refl (s : State) : NoMisuse s s := ⟨rfl, fun w hw => by simp at hw⟩

/-- The mark is set and LIFECYCLE_ERROR answered in one step, or neither happens. -/
theorem step_misuse (h : step s = .next t) :
    NoMisuse s t ∨ (t.faulted = true ∧ t.responses = s.responses ++ [0x3000000000000000#64]) := by
  rcases step_next h with ⟨rfl, -⟩ | ⟨w, rest, -, -, ⟨why, -, rfl⟩ | ⟨i, -, hi⟩⟩
  · exact .inl (noMisuse_refl t)
  · exact .inl (noMisuse_respond (by decide) rfl rfl)
  · cases hv : validIn i s.takeCommand.life with
    | true =>
      have hok := (exec_effect hi).noMisuse_of_valid hv
      exact .inl ⟨hok.mark, hok.status⟩
    | false =>
      rw [exec_of_not_valid hv, lifecycleError_eq] at hi
      cases hi
      exact .inr ⟨rfl, rfl⟩

end Errors

section Shapes
variable {rs new : List Request} {q : Request} {l : Life}

/-! ## Sequences of requests (R266) -/

theorem RolledBack.append (h : RolledBack rs) (hnew : RolledBack new) : RolledBack (rs ++ new) := by
  induction h with
  | none => exact hnew
  | failed e rest _ ih => exact .failed e _ ih
  | undone rest _ ih => exact .undone _ ih

theorem RolledBack.acquired (h : RolledBack rs) : Acquired (rs ++ [.init .initOk]) :=
  ⟨rs, [], h, by simp, rfl⟩

theorem Acquired.append_write (h : Acquired rs) (hq : q.answeredWrite = true) : Acquired (rs ++ [q]) := by
  obtain ⟨before, writes, hb, hw, rfl⟩ := h
  refine ⟨before, writes ++ [q], hb, fun r hr => ?_, by simp⟩
  rcases List.mem_append.mp hr with hr | hr
  · exact hw r hr
  · rwa [List.mem_singleton.mp hr]

/-- The requests that may have been recorded in each lifecycle state, all of them answered (R210, R266). -/
def FitsLife : Life → List Request → Prop
  | .uninitialized, rs => RolledBack rs
  | .ready, rs => Acquired rs
  | .destroyed, rs => ∃ before, Acquired before ∧ rs = before ++ [.teardown]

theorem FitsLife.requestShape (h : FitsLife l rs) : RequestShape rs := by
  cases l with
  | uninitialized => exact .inl h
  | ready => exact .inr (.inl h)
  | destroyed => exact .inr (.inr h)

end Shapes

section Transport
variable {s t : State} {i : Instr} {before : List Request}

/-! ## The agreement of LIFE with the requests -/

theorem State.TransportInv.fitsLife (h : s.TransportInv) (hw : s.waiting = false) : FitsLife s.life s.requests := by
  cases hl : s.life with
  | uninitialized => exact h.uninitialized hw hl
  | ready => exact h.ready hw hl
  | destroyed => exact h.destroyed hw hl

theorem transportInv_of_fitsLife {l : Life} (hw : s.waiting = false) (hl : s.life = l) (h : FitsLife l s.requests) :
    s.TransportInv := by
  subst hl
  exact {
    uninitialized := fun _ hl => by rwa [hl] at h
    ready := fun _ hl => by rwa [hl] at h
    destroyed := fun _ hl => by rwa [hl] at h
    hanging := fun ht => by simp [hw] at ht }

/-- A run may hang in any request that follows answered ones (R293). -/
theorem transportInv_hang {q : Request} (hb : RequestShape before) (hq : q.unanswered = true)
    (hr : s.requests = before ++ [q]) : s.hang.TransportInv where
  uninitialized := nofun
  ready := nofun
  destroyed := nofun
  hanging _ := ⟨before, q, hr, hq, hb⟩

theorem transportInv_boot (cfg : Config) (cmds : List Word) (di : Draws InitAnswer) (dw : Draws WriteAnswer) :
    (State.boot cfg cmds di dw).TransportInv :=
  transportInv_of_fitsLife rfl rfl RolledBack.none

/-- After the write of a SHOW in Ready, whatever its answer (R214); `t` is the state after the request. -/
theorem transportInv_afterWrite {a : WriteAnswer} {h p f : List Byte} (hw : t.waiting = false) (hl : t.life = .ready)
    (hb : Acquired before) (hr : t.requests = before ++ [.write h p f a]) : (afterWrite a t).TransportInv := by
  cases a with
  | writeOk => exact transportInv_of_fitsLife hw hl (hr ▸ hb.append_write rfl)
  | ioError e => exact transportInv_of_fitsLife hw hl (hr ▸ hb.append_write rfl)
  | silent => exact transportInv_hang (.inr (.inl hb)) rfl hr

/-- After `T.init()` was answered InitOk: the transport is kept, or a rollback tears it down again (R211, R212). -/
theorem transportInv_buildStrip (n : Index) (hw : t.waiting = false) (hl : t.life = .uninitialized)
    (hb : RolledBack before) (hr : t.requests = before ++ [.init .initOk]) : (buildStrip n t).TransportInv := by
  rcases buildStrip_cases n t with ⟨-, -, h⟩ | ⟨sub, h⟩
  · rw [h]
    exact transportInv_of_fitsLife hw rfl (hr ▸ hb.acquired)
  · rw [h]
    have hreq : (requestTeardown t).requests = before ++ [.init .initOk, .teardown] := by simp [hr]
    exact transportInv_of_fitsLife hw hl (hreq ▸ hb.append (.undone [] .none))

/-- After the `T.init()` of a CREATE in Uninitialized, whatever its answer (R211); `t` is the state after the request. -/
theorem transportInv_afterInit (n : Index) {a : InitAnswer} (hw : t.waiting = false) (hl : t.life = .uninitialized)
    (hb : RolledBack before) (hr : t.requests = before ++ [.init a]) : (afterInit n a t).TransportInv := by
  cases a with
  | initOk => exact transportInv_buildStrip n hw hl hb hr
  | initError e => exact transportInv_of_fitsLife hw hl (hr ▸ hb.append (.failed e [] .none))
  | silent => exact transportInv_hang (.inl hb) rfl hr

theorem Effect.keeps_transportInv (h : Effect s i t) (hw : s.waiting = false) (hs : s.TransportInv) : t.TransportInv := by
  cases h with
  | refused _ _ => exact transportInv_of_fitsLife hw rfl (hs.fitsLife hw)
  | pixels _ _ _ he =>
    obtain ⟨-, records, data, rfl, -⟩ := he
    exact transportInv_of_fitsLife hw rfl (hs.fitsLife hw)
  | shown hl => exact transportInv_afterWrite hw hl (hs.ready hw hl) rfl
  | destroyed hl => exact transportInv_of_fitsLife hw rfl ⟨s.requests, hs.ready hw hl, rfl⟩
  | created n hl => exact transportInv_afterInit n hw hl (hs.uninitialized hw hl) rfl

theorem step_keeps_transportInv (hs : s.TransportInv) (h : step s = .next t) : t.TransportInv := by
  rcases step_next h with ⟨rfl, -⟩ | ⟨w, rest, hw, -, ⟨why, -, rfl⟩ | ⟨i, -, hi⟩⟩
  · exact hs
  · exact transportInv_of_fitsLife hw rfl (hs.fitsLife hw)
  · have htake : s.takeCommand.TransportInv := transportInv_of_fitsLife hw rfl (hs.fitsLife hw)
    exact (exec_effect hi).keeps_transportInv hw htake

theorem reach_keeps_transportInv (hs : s.TransportInv) (h : Reach s t) : t.TransportInv := by
  induction h with
  | refl => exact hs
  | tail t u _ hstep ih => exact step_keeps_transportInv ih hstep

end Transport

section Instances
variable {sys sys' a b : System} {i j : Nat}

/-! ## Several instances (R268) -/

theorem stepAt_of_none (hi : sys[i]? = none) : System.stepAt sys i = .next sys := by
  simp [System.stepAt, hi]

/-- A system step, inverted: no state stands at the place, or the one there takes a step of its own. -/
theorem stepAt_cases (h : System.stepAt sys i = .next sys') :
    (sys[i]? = none ∧ sys' = sys) ∨ ∃ s t, sys[i]? = some s ∧ step s = .next t ∧ sys' = sys.set i t := by
  unfold System.stepAt at h
  cases hi : sys[i]? with
  | none => exact .inl ⟨rfl, by simpa [hi, eq_comm] using h⟩
  | some s =>
    cases hs : step s with
    | next t => exact .inr ⟨s, t, rfl, hs, by simpa [hi, hs, eq_comm] using h⟩
    | fault f => simp [hi, hs] at h
    | refused r => simp [hi, hs] at h

theorem stepAt_getElem?_ne (h : System.stepAt sys i = .next sys') (hj : j ≠ i) : sys'[j]? = sys[j]? := by
  rcases stepAt_cases h with ⟨-, rfl⟩ | ⟨s, t, -, -, rfl⟩
  · rfl
  · exact List.getElem?_set_ne hj.symm

theorem stepAt_getElem?_self {s : State} (h : System.stepAt sys i = .next sys') (hi : sys[i]? = some s) :
    ∃ t, step s = .next t ∧ sys'[i]? = some t := by
  rcases stepAt_cases h with ⟨hn, -⟩ | ⟨s', t, hs, hst, rfl⟩
  · simp [hi] at hn
  · obtain rfl : s = s' := by simpa [hi] using hs
    exact ⟨t, hst, List.getElem?_set_self (List.getElem?_eq_some_iff.mp hi).1⟩

/-- Where one of the two instances is not there its step changes nothing; otherwise two places of the list are set in either order. -/
theorem stepAt_comm (hij : i ≠ j) (ha : System.stepAt sys i = .next a) (hb : System.stepAt a j = .next b) :
    ∃ c, System.stepAt sys j = .next c ∧ System.stepAt c i = .next b := by
  have hj : a[j]? = sys[j]? := stepAt_getElem?_ne ha hij.symm
  rcases stepAt_cases ha with ⟨hi, rfl⟩ | ⟨s, t, hi, hst, rfl⟩
  · exact ⟨b, hb, stepAt_of_none ((stepAt_getElem?_ne hb hij).trans hi)⟩
  · rcases stepAt_cases hb with ⟨hn, rfl⟩ | ⟨s', t', hs', hst', rfl⟩
    · exact ⟨sys, stepAt_of_none (hj ▸ hn), ha⟩
    · have hc : System.stepAt sys j = .next (sys.set j t') := stepAt_next (hj ▸ hs') hst'
      refine ⟨_, hc, ?_⟩
      rw [List.set_comm _ _ hij]
      exact stepAt_next ((stepAt_getElem?_ne hc hij).trans hi) hst

end Instances

/-! # The statements of the exceptions' family -/

/-- Settles O46: each command records the requests that its lifecycle state and the one it leaves allow. -/
theorem stepKeepsTheTransportInvariant : Obligations.StepKeepsTheTransportInvariant :=
  fun _ _ => step_keeps_transportInv

/-- Settles O42: a changed block means the answer OK, and no step changes MAXLEDS. -/
theorem errorsChangeNothing : Obligations.ErrorsChangeNothing := by
  intro s t w h hw hstatus
  refine ⟨?_, (step_hdr_cfg h).2⟩
  rcases step_sameBlock_or_ok h with hb | ⟨data, hr⟩
  · exact hb
  · obtain rfl : responseWord .ok .none 0 data = w := by simpa [hr] using hw
    exact absurd (statusField_responseWord ..) hstatus

/-- Settles O47: the agreement of LIFE with the requests holds after reset and so in every state of a run. -/
theorem requestsOfARunHaveTheirShape : Obligations.RequestsOfARunHaveTheirShape := by
  rintro t ⟨cfg, cmds, di, dw, hreach⟩
  have ht := reach_keeps_transportInv (transportInv_boot cfg cmds di dw) hreach
  exact ⟨fun hw => (ht.fitsLife hw).requestShape, ht.hanging⟩

/-- Settles O51: a step without misuse leaves the mark and answers something else. -/
theorem misuseIsMarkedForEver : Obligations.MisuseIsMarkedForEver := by
  intro s t h
  rcases step_misuse h with hok | ⟨hmark, hr⟩
  · refine ⟨fun hs => hok.mark.trans hs, fun hw => absurd (by decide) (hok.status _ hw), fun hs ht => ?_⟩
    simp [hok.mark, hs] at ht
  · exact ⟨fun _ => hmark, fun _ => hmark, fun _ _ => hr⟩

/-- Settles O55: a system step sets one place of the list, and two places are set in either order. -/
theorem instancesShareNothing : Obligations.InstancesShareNothing :=
  ⟨fun _ _ _ h => ⟨fun _ => stepAt_getElem?_ne h, fun _ => stepAt_getElem?_self h⟩,
    fun _ _ _ _ _ => stepAt_comm⟩

end Sys2Proof.Machine


/-! # The reset's family: the state after reset, and a run that hangs (70_reset_and_hazards.md)

A boot state meets both invariants, and a step with nothing presented leaves its state. So a state that waits for an answer of the
transport is the only state of every run from it. -/

namespace Sys2Proof.Machine

section Reset

/-! ## The state after reset (R281) -/

theorem unsized_boot (cfg : Config) (cmds : List Word) (di : Draws InitAnswer) (dw : Draws WriteAnswer) :
    (State.boot cfg cmds di dw).Unsized :=
  ⟨rfl, rfl, rfl, rfl⟩

/-- After reset LIFE is not Ready, so the invariant asks for the header and for no sized item (R28, R33). -/
theorem inv_boot (cfg : Config) (cmds : List Word) (di : Draws InitAnswer) (dw : Draws WriteAnswer) :
    (State.boot cfg cmds di dw).Inv where
  hdr := rfl
  sized := nofun
  unsized _ := unsized_boot cfg cmds di dw

end Reset

section Hang
variable {s t : State}

/-! ## Steps with nothing presented, and requests never answered (R293) -/

theorem step_of_presented_nothing (h : presented s = .nothing) : step s = .next s := by rw [step, h]

theorem reach_of_waiting (hw : s.waiting = true) (h : Reach s t) : t = s := by
  induction h with
  | refl => rfl
  | tail t u _ hstep ih =>
    subst ih
    have hidle : step t = .next t := step_of_presented_nothing (presented_waiting hw)
    exact Host.Outcome.next.inj (hstep.symm.trans hidle)

/-- A hang after a request that gave no response and left the six items; `t` is the state after the request. -/
theorem hang_is_final (hb : SameBlock s t) (hr : t.responses = s.responses) :
    t.hang.waiting = true ∧ t.hang.responses = s.responses ∧ SameBlock s t.hang ∧ ∀ u, Reach t.hang u → u = t.hang :=
  ⟨rfl, hr, hb.trans ⟨rfl, rfl, rfl, rfl, rfl, rfl⟩, fun _ => reach_of_waiting rfl⟩

theorem exec_show_of_silent (hs : s.Inv) (hr : s.life = .ready) (ha : s.writeDraws.head = .silent) :
    exec .showStrip s = .next (requestWrite s.hdr.toList (pixBytesOf s.pix) s.ftr s).hang := by
  obtain ⟨t, ht⟩ := exec_goes_on hs .showStrip
  rw [ht, exec_show_of_ready hr ht, ha, afterWrite]

theorem exec_create_of_silent {n : Index} (hl : s.life = .uninitialized) (ha : s.initDraws.head = .silent) :
    exec (.create n) s = .next (requestInit s).hang := by
  rw [exec_create_of_uninitialized hl, ha, afterInit]

end Hang

/-! # The statements of the reset's family -/

/-- Settles O44: every boot state meets both invariants, `State.reset` is one of them, and no command is presented in it. -/
theorem resetMeetsTheInvariant : Obligations.ResetMeetsTheInvariant :=
  ⟨⟨rfl, rfl, unsized_boot _ _ _ _, rfl, inv_boot _ _ _ _, transportInv_boot _ _ _ _,
      step_of_presented_nothing (presented_idle rfl)⟩,
    fun cfg cmds di dw =>
      ⟨rfl, rfl, unsized_boot cfg cmds di dw, rfl, inv_boot cfg cmds di dw, transportInv_boot cfg cmds di dw⟩⟩

/-- Settles O50: with a silent transport SHOW and CREATE hang after their request, and a hanging state is final. -/
theorem unansweredRequestHangsTheRun : Obligations.UnansweredRequestHangsTheRun :=
  ⟨fun _ hs hr ha => ⟨_, exec_show_of_silent hs hr ha, hang_is_final ⟨rfl, rfl, rfl, rfl, rfl, rfl⟩ rfl⟩,
    fun _ _ hl ha => ⟨_, exec_create_of_silent hl ha, hang_is_final ⟨rfl, rfl, rfl, rfl, rfl, rfl⟩ rfl⟩⟩

end Sys2Proof.Machine
